-- ==== Sys2Proof/Word.lean ====
section
/-! DEFINITION. The word types of the machine (spec 00_scope R10). -/

namespace Sys2Proof

/-- A 32-bit register or memory word (00_scope R10: bit 0 is the least significant). -/
abbrev Word := BitVec 32

/-- One byte of memory (20_memory R200). -/
abbrev Byte := BitVec 8

/-- A 5-bit register number field (30_encoding R301). -/
abbrev RegNum := BitVec 5

end Sys2Proof
end

