-- ==== Sys2Proof/Config.lean ====
section
/-! DEFINITION. The parameters of spec 00_scope R16 at the values the spec's own default column gives them (log entry 25), and
the values the spec leaves open, as constants without a body (log entries 12, 17, 18, 19). -/

namespace Sys2Proof.Config

/-! ### Values nothing constrains -/

/-- The `k`-th value the sources do not determine (00_scope R12 `unspecified(32)`). Narrower ones take its low bits. -/
opaque freeWord : Nat → Word

/-- Memory check-bit generator, apart from what the EDAC rules fix (20_memory R271: the equations are not given). -/
opaque enc : Word → BitVec 7

/-- Register-file check-bit generator where the manual gives no value (20_memory R260). -/
opaque encRfElsewhere : Word → BitVec 7

/-- Register-file check-bit generator: the one printed value is enc_rf(0xAAAAAAAA) = 0x0C (20_memory R260). -/
def encRf (d : Word) : BitVec 7 := if d = 0xAAAAAAAA#32 then 0x0C#7 else encRfElsewhere d

/-- What the code makes of a word with three or more flipped bits (93 I37): `none` is a detected multiple error, `some g` a wrong
single-bit correction after which the flips `g` remain. -/
opaque wideFlip : BitVec 39 → Option (BitVec 39)

/-- Whether cache parity notices an even, nonzero number of flipped bits (data flips, parity flips): the grouping of the four
parity bits is not given (20_memory R254). -/
opaque parityNoticesEven : Word → BitVec 4 → Bool

/-- AHB master numbers (parameter AHB_MASTER_ID, 20_memory R234). -/
opaque hmastIu : BitVec 4
opaque hmastPci : BitVec 4
opaque hmastDsu : BitVec 4

/-- CPU_VERSION.VERSION (parameter PCI_BRIDGE_VERSION, 11 R103). -/
opaque pciBridgeVersion : BitVec 12

/-- What the check bits of a register nothing has written say at reset, as flipped bits, by its place in the file, where
REGFILE_RESET_CHECKBITS_VALID is false (70 R806): integer registers from 0, f registers from 136. -/
opaque regfileResetFlip : Nat → BitVec 39

/-- PCI_BAR_OFFSETS: the offsets of BAR3, BAR4 and BAR5 in the configuration header (11 R120: left open; log entry 35). -/
opaque pciBar3Offset : BitVec 8
opaque pciBar4Offset : BitVec 8
opaque pciBar5Offset : BitVec 8

/-- CCR bits 31:24, the read-only fields LRP, IRP, ISTS, DSTS (20_memory R253: any constant). -/
opaque ccrConstants : BitVec 8

/-! ### Parameters of 00_scope R16 -/

/-- MODEL_CACHES: the model keeps the cache contents as state; false takes the caches out as 20_memory R257 says. -/
def modelCaches : Bool := true
/-- PROM_FETCH_CHECK_WHEN_DISABLED (20_memory R277). -/
def promFetchCheckWhenDisabled : Bool := false
/-- PSR_EF_WRITABLE (10_state R26). -/
def psrEfWritable : Bool := true
/-- ASR_PRIVILEGED (43 R520). -/
def asrPrivileged : Bool := true

/-- Values of MAC_ENCODINGS (30_encoding R322). -/
inductive MacEncodings where
  | refuse
  | illegal
  deriving DecidableEq, Repr
/-- MAC_ENCODINGS. -/
def macEncodings : MacEncodings := .refuse

/-- Values of FP_SUBNORMAL (44 R597). -/
inductive FpSubnormal where
  | ieee
  | unfinished
  deriving DecidableEq, Repr
/-- FP_SUBNORMAL. -/
def fpSubnormal : FpSubnormal := .ieee

/-- IRL15_NONMASKABLE (60 R660). -/
def irl15Nonmaskable : Bool := false
/-- TIMER_ONESHOT_STOPS (60 R681). -/
def timerOneshotStops : Bool := true
/-- WDOG_RESETS (60 R684). -/
def wdogResets : Bool := false
/-- RESET_PIO: the levels of PIO[2:0] at reset, a 32-bit PROM without EDAC (70 R803; log entry 11). -/
def resetPio : BitVec 3 := 0b010#3
/-- RESET_ROMBSD (70 R803; log entry 11). -/
def resetRombsd : BitVec 4 := 0#4
/-- REGFILE_RESET_CHECKBITS_VALID (70 R806). -/
def regfileResetCheckbitsValid : Bool := true
/-- DSUEN_PIN (61 R786). -/
def dsuenPin : Bool := false
/-- DSUBRE_PIN (61 R786). -/
def dsubrePin : Bool := false
/-- A frame description of the DSU link (61 R781): the bits of the control byte that mark a command and a write, the mask of the
length field, and whether address and data come most significant byte first. -/
structure LinkFormat where
  command : BitVec 8
  write : BitVec 8
  length : BitVec 8
  msbFirst : Bool
  deriving DecidableEq, Repr
/-- DSU_LINK_FORMAT: `1 w LLLLLL` and the most significant byte first (61 R781, log entry 46). -/
def dsuLinkFormat : LinkFormat := { command := 0x80#8, write := 0x40#8, length := 0x3F#8, msbFirst := true }
/-- DSU_UART_CTRL_AT_C4 (10_state R82). -/
def dsuUartCtrlAtC4 : Bool := true
/-- PCI_HOST_MODE: the level of pin pci_host, low (11 R91; log entry 11). -/
def pciHostMode : Bool := true
/-- PCI_WINDOW_ERROR_TRAPS, by rules R16 and R742 (log entry 25). -/
def pciWindowErrorTraps : Bool := false

/-- Values of CYCLE_MODEL (70 R840): each step takes the clocks of Table 2-1, or the environment says how many. -/
inductive CycleModel where
  | table
  | free
  deriving DecidableEq, Repr
/-- CYCLE_MODEL. -/
def cycleModel : CycleModel := .free

/-- A NaN as FP_NAN_RESULT takes and gives it: the fraction bits of its format, its sign, its fraction. -/
structure Nan where
  mb : Nat
  sign : Bool
  frac : Nat
  deriving DecidableEq, Repr
/-- FP_NAN_RESULT: the NaN delivered in a format of `mb` fraction bits, from the NaN operands, that of rs2 first; none is an invalid
operation. Its fraction's first bit is set in any case, since the result is a quiet NaN (44 R598). Here the SPARC V8 convention: the
fraction all ones and sign 0, or the first operand's sign and first fraction bits (log entries 25, 31). -/
def nanResult (mb : Nat) (operands : List Nan) : Nan :=
  match operands with
  | [] => { mb := mb, sign := false, frac := 2 ^ mb - 1 }
  | x :: _ => { mb := mb, sign := x.sign, frac := if x.mb ≤ mb then x.frac <<< (mb - x.mb) else x.frac >>> (x.mb - mb) }

end Sys2Proof.Config
end

