-- ==== Sys2Proof/Syntax.lean ====
section
/-! DEFINITION. The instruction set as syntax: one constructor for each row of spec/opcode_table.json (30_encoding R301 to R312). -/

namespace Sys2Proof

/-- `reg_or_imm` and the second part of `address` (30_encoding R301): register when i = 0, signed 13-bit constant when i = 1. -/
inductive RegImm where
  | reg (rs2 : RegNum)
  | imm (simm13 : BitVec 13)
  deriving DecidableEq, Repr

/-- Second operand of a shift: a register, or the 5-bit count of the immediate form (30_encoding R312). -/
inductive ShiftArg where
  | reg (rs2 : RegNum)
  | imm (shcnt : BitVec 5)
  deriving DecidableEq, Repr

/-- Second part of a Ticc operand: a register, or the low 7 immediate bits (30_encoding R312). -/
inductive TrapArg where
  | reg (rs2 : RegNum)
  | imm (imm7 : BitVec 7)
  deriving DecidableEq, Repr

/-- Address operand of an alternate-space access (30_encoding R301). The i = 1 form is an instruction too: it raises
illegal_instruction (30_encoding R316, 40 R351). -/
inductive AltArg where
  | reg (asi : BitVec 8) (rs2 : RegNum)
  | imm (simm13 : BitVec 13)
  deriving DecidableEq, Repr

/-- The instructions. Fields that the spec says are ignored (30_encoding R316) are not carried, except the constant of UNIMP. -/
inductive Instr where
  | call (disp30 : BitVec 30)
  | unimp (const22 : BitVec 22)
  | nop
  | sethi (rd : RegNum) (imm22 : BitVec 22)
  | ba (a : Bool) (disp22 : BitVec 22)
  | bn (a : Bool) (disp22 : BitVec 22)
  | bne (a : Bool) (disp22 : BitVec 22)
  | be (a : Bool) (disp22 : BitVec 22)
  | bg (a : Bool) (disp22 : BitVec 22)
  | ble (a : Bool) (disp22 : BitVec 22)
  | bge (a : Bool) (disp22 : BitVec 22)
  | bl (a : Bool) (disp22 : BitVec 22)
  | bgu (a : Bool) (disp22 : BitVec 22)
  | bleu (a : Bool) (disp22 : BitVec 22)
  | bcc (a : Bool) (disp22 : BitVec 22)
  | bcs (a : Bool) (disp22 : BitVec 22)
  | bpos (a : Bool) (disp22 : BitVec 22)
  | bneg (a : Bool) (disp22 : BitVec 22)
  | bvc (a : Bool) (disp22 : BitVec 22)
  | bvs (a : Bool) (disp22 : BitVec 22)
  | fbn (a : Bool) (disp22 : BitVec 22)
  | fbne (a : Bool) (disp22 : BitVec 22)
  | fblg (a : Bool) (disp22 : BitVec 22)
  | fbul (a : Bool) (disp22 : BitVec 22)
  | fbl (a : Bool) (disp22 : BitVec 22)
  | fbug (a : Bool) (disp22 : BitVec 22)
  | fbg (a : Bool) (disp22 : BitVec 22)
  | fbu (a : Bool) (disp22 : BitVec 22)
  | fba (a : Bool) (disp22 : BitVec 22)
  | fbe (a : Bool) (disp22 : BitVec 22)
  | fbue (a : Bool) (disp22 : BitVec 22)
  | fbge (a : Bool) (disp22 : BitVec 22)
  | fbuge (a : Bool) (disp22 : BitVec 22)
  | fble (a : Bool) (disp22 : BitVec 22)
  | fbule (a : Bool) (disp22 : BitVec 22)
  | fbo (a : Bool) (disp22 : BitVec 22)
  | cbccc (a : Bool) (cond : BitVec 4) (disp22 : BitVec 22)
  | add (rd : RegNum) (rs1 : RegNum) (op2 : RegImm)
  | and (rd : RegNum) (rs1 : RegNum) (op2 : RegImm)
  | or (rd : RegNum) (rs1 : RegNum) (op2 : RegImm)
  | xor (rd : RegNum) (rs1 : RegNum) (op2 : RegImm)
  | sub (rd : RegNum) (rs1 : RegNum) (op2 : RegImm)
  | andn (rd : RegNum) (rs1 : RegNum) (op2 : RegImm)
  | orn (rd : RegNum) (rs1 : RegNum) (op2 : RegImm)
  | xnor (rd : RegNum) (rs1 : RegNum) (op2 : RegImm)
  | addx (rd : RegNum) (rs1 : RegNum) (op2 : RegImm)
  | umul (rd : RegNum) (rs1 : RegNum) (op2 : RegImm)
  | smul (rd : RegNum) (rs1 : RegNum) (op2 : RegImm)
  | subx (rd : RegNum) (rs1 : RegNum) (op2 : RegImm)
  | udiv (rd : RegNum) (rs1 : RegNum) (op2 : RegImm)
  | sdiv (rd : RegNum) (rs1 : RegNum) (op2 : RegImm)
  | addcc (rd : RegNum) (rs1 : RegNum) (op2 : RegImm)
  | andcc (rd : RegNum) (rs1 : RegNum) (op2 : RegImm)
  | orcc (rd : RegNum) (rs1 : RegNum) (op2 : RegImm)
  | xorcc (rd : RegNum) (rs1 : RegNum) (op2 : RegImm)
  | subcc (rd : RegNum) (rs1 : RegNum) (op2 : RegImm)
  | andncc (rd : RegNum) (rs1 : RegNum) (op2 : RegImm)
  | orncc (rd : RegNum) (rs1 : RegNum) (op2 : RegImm)
  | xnorcc (rd : RegNum) (rs1 : RegNum) (op2 : RegImm)
  | addxcc (rd : RegNum) (rs1 : RegNum) (op2 : RegImm)
  | umulcc (rd : RegNum) (rs1 : RegNum) (op2 : RegImm)
  | smulcc (rd : RegNum) (rs1 : RegNum) (op2 : RegImm)
  | subxcc (rd : RegNum) (rs1 : RegNum) (op2 : RegImm)
  | udivcc (rd : RegNum) (rs1 : RegNum) (op2 : RegImm)
  | sdivcc (rd : RegNum) (rs1 : RegNum) (op2 : RegImm)
  | taddcc (rd : RegNum) (rs1 : RegNum) (op2 : RegImm)
  | tsubcc (rd : RegNum) (rs1 : RegNum) (op2 : RegImm)
  | taddcctv (rd : RegNum) (rs1 : RegNum) (op2 : RegImm)
  | tsubcctv (rd : RegNum) (rs1 : RegNum) (op2 : RegImm)
  | mulscc (rd : RegNum) (rs1 : RegNum) (op2 : RegImm)
  | sll (rd : RegNum) (rs1 : RegNum) (cnt : ShiftArg)
  | srl (rd : RegNum) (rs1 : RegNum) (cnt : ShiftArg)
  | sra (rd : RegNum) (rs1 : RegNum) (cnt : ShiftArg)
  | stbar
  | rdy (rd : RegNum)
  | rdasr (rd : RegNum) (n : RegNum)
  | rdpsr (rd : RegNum)
  | rdwim (rd : RegNum)
  | rdtbr (rd : RegNum)
  | wry (rs1 : RegNum) (op2 : RegImm)
  | wrasr (n : RegNum) (rs1 : RegNum) (op2 : RegImm)
  | wrpsr (rs1 : RegNum) (op2 : RegImm)
  | wrwim (rs1 : RegNum) (op2 : RegImm)
  | wrtbr (rs1 : RegNum) (op2 : RegImm)
  | fmovs (rd : RegNum) (rs2 : RegNum)
  | fnegs (rd : RegNum) (rs2 : RegNum)
  | fabss (rd : RegNum) (rs2 : RegNum)
  | fsqrts (rd : RegNum) (rs2 : RegNum)
  | fsqrtd (rd : RegNum) (rs2 : RegNum)
  | fadds (rd : RegNum) (rs1 : RegNum) (rs2 : RegNum)
  | faddd (rd : RegNum) (rs1 : RegNum) (rs2 : RegNum)
  | fsubs (rd : RegNum) (rs1 : RegNum) (rs2 : RegNum)
  | fsubd (rd : RegNum) (rs1 : RegNum) (rs2 : RegNum)
  | fmuls (rd : RegNum) (rs1 : RegNum) (rs2 : RegNum)
  | fmuld (rd : RegNum) (rs1 : RegNum) (rs2 : RegNum)
  | fdivs (rd : RegNum) (rs1 : RegNum) (rs2 : RegNum)
  | fdivd (rd : RegNum) (rs1 : RegNum) (rs2 : RegNum)
  | fsmuld (rd : RegNum) (rs1 : RegNum) (rs2 : RegNum)
  | fitos (rd : RegNum) (rs2 : RegNum)
  | fdtos (rd : RegNum) (rs2 : RegNum)
  | fitod (rd : RegNum) (rs2 : RegNum)
  | fstod (rd : RegNum) (rs2 : RegNum)
  | fstoi (rd : RegNum) (rs2 : RegNum)
  | fdtoi (rd : RegNum) (rs2 : RegNum)
  | fsqrtq (rd : RegNum) (rs2 : RegNum)
  | faddq (rd : RegNum) (rs1 : RegNum) (rs2 : RegNum)
  | fsubq (rd : RegNum) (rs1 : RegNum) (rs2 : RegNum)
  | fmulq (rd : RegNum) (rs1 : RegNum) (rs2 : RegNum)
  | fdivq (rd : RegNum) (rs1 : RegNum) (rs2 : RegNum)
  | fdmulq (rd : RegNum) (rs1 : RegNum) (rs2 : RegNum)
  | fqtos (rd : RegNum) (rs2 : RegNum)
  | fqtod (rd : RegNum) (rs2 : RegNum)
  | fitoq (rd : RegNum) (rs2 : RegNum)
  | fstoq (rd : RegNum) (rs2 : RegNum)
  | fdtoq (rd : RegNum) (rs2 : RegNum)
  | fqtoi (rd : RegNum) (rs2 : RegNum)
  | fcmps (rs1 : RegNum) (rs2 : RegNum)
  | fcmpd (rs1 : RegNum) (rs2 : RegNum)
  | fcmpes (rs1 : RegNum) (rs2 : RegNum)
  | fcmped (rs1 : RegNum) (rs2 : RegNum)
  | fcmpq (rs1 : RegNum) (rs2 : RegNum)
  | fcmpeq (rs1 : RegNum) (rs2 : RegNum)
  | cpop1 (rd : RegNum) (rs1 : RegNum) (opc : BitVec 9) (rs2 : RegNum)
  | cpop2 (rd : RegNum) (rs1 : RegNum) (opc : BitVec 9) (rs2 : RegNum)
  | jmpl (rd : RegNum) (rs1 : RegNum) (op2 : RegImm)
  | rett (rs1 : RegNum) (op2 : RegImm)
  | ta (rs1 : RegNum) (arg : TrapArg)
  | tn (rs1 : RegNum) (arg : TrapArg)
  | tne (rs1 : RegNum) (arg : TrapArg)
  | te (rs1 : RegNum) (arg : TrapArg)
  | tg (rs1 : RegNum) (arg : TrapArg)
  | tle (rs1 : RegNum) (arg : TrapArg)
  | tge (rs1 : RegNum) (arg : TrapArg)
  | tl (rs1 : RegNum) (arg : TrapArg)
  | tgu (rs1 : RegNum) (arg : TrapArg)
  | tleu (rs1 : RegNum) (arg : TrapArg)
  | tcc (rs1 : RegNum) (arg : TrapArg)
  | tcs (rs1 : RegNum) (arg : TrapArg)
  | tpos (rs1 : RegNum) (arg : TrapArg)
  | tneg (rs1 : RegNum) (arg : TrapArg)
  | tvc (rs1 : RegNum) (arg : TrapArg)
  | tvs (rs1 : RegNum) (arg : TrapArg)
  | flush (rs1 : RegNum) (op2 : RegImm)
  | save (rd : RegNum) (rs1 : RegNum) (op2 : RegImm)
  | restore (rd : RegNum) (rs1 : RegNum) (op2 : RegImm)
  | mac3e (rd : RegNum) (rs1 : RegNum) (op2 : RegImm)
  | mac3f (rd : RegNum) (rs1 : RegNum) (op2 : RegImm)
  | ld (rd : RegNum) (rs1 : RegNum) (op2 : RegImm)
  | ldub (rd : RegNum) (rs1 : RegNum) (op2 : RegImm)
  | lduh (rd : RegNum) (rs1 : RegNum) (op2 : RegImm)
  | ldd (rd : RegNum) (rs1 : RegNum) (op2 : RegImm)
  | st (rd : RegNum) (rs1 : RegNum) (op2 : RegImm)
  | stb (rd : RegNum) (rs1 : RegNum) (op2 : RegImm)
  | sth (rd : RegNum) (rs1 : RegNum) (op2 : RegImm)
  | std (rd : RegNum) (rs1 : RegNum) (op2 : RegImm)
  | ldsb (rd : RegNum) (rs1 : RegNum) (op2 : RegImm)
  | ldsh (rd : RegNum) (rs1 : RegNum) (op2 : RegImm)
  | ldstub (rd : RegNum) (rs1 : RegNum) (op2 : RegImm)
  | swap (rd : RegNum) (rs1 : RegNum) (op2 : RegImm)
  | lda (rd : RegNum) (rs1 : RegNum) (alt : AltArg)
  | lduba (rd : RegNum) (rs1 : RegNum) (alt : AltArg)
  | lduha (rd : RegNum) (rs1 : RegNum) (alt : AltArg)
  | ldda (rd : RegNum) (rs1 : RegNum) (alt : AltArg)
  | sta (rd : RegNum) (rs1 : RegNum) (alt : AltArg)
  | stba (rd : RegNum) (rs1 : RegNum) (alt : AltArg)
  | stha (rd : RegNum) (rs1 : RegNum) (alt : AltArg)
  | stda (rd : RegNum) (rs1 : RegNum) (alt : AltArg)
  | ldsba (rd : RegNum) (rs1 : RegNum) (alt : AltArg)
  | ldsha (rd : RegNum) (rs1 : RegNum) (alt : AltArg)
  | ldstuba (rd : RegNum) (rs1 : RegNum) (alt : AltArg)
  | swapa (rd : RegNum) (rs1 : RegNum) (alt : AltArg)
  | ldf (rd : RegNum) (rs1 : RegNum) (op2 : RegImm)
  | ldfsr (rs1 : RegNum) (op2 : RegImm)
  | lddf (rd : RegNum) (rs1 : RegNum) (op2 : RegImm)
  | stf (rd : RegNum) (rs1 : RegNum) (op2 : RegImm)
  | stfsr (rs1 : RegNum) (op2 : RegImm)
  | stdfq (rs1 : RegNum) (op2 : RegImm)
  | stdf (rd : RegNum) (rs1 : RegNum) (op2 : RegImm)
  | ldc (rd : RegNum) (rs1 : RegNum) (op2 : RegImm)
  | ldcsr (rd : RegNum) (rs1 : RegNum) (op2 : RegImm)
  | lddc (rd : RegNum) (rs1 : RegNum) (op2 : RegImm)
  | stc (rd : RegNum) (rs1 : RegNum) (op2 : RegImm)
  | stcsr (rd : RegNum) (rs1 : RegNum) (op2 : RegImm)
  | stdcq (rd : RegNum) (rs1 : RegNum) (op2 : RegImm)
  | stdc (rd : RegNum) (rs1 : RegNum) (op2 : RegImm)
  deriving DecidableEq, Repr

end Sys2Proof
end

