-- ==== Sys2Proof/Decode.lean ====
section
/-! DEFINITION. The decoder and the encoder (30_encoding R300 to R321). -/

namespace Sys2Proof

/-! ### Fields of an instruction word (30_encoding R302) -/

def opField (w : Word) : BitVec 2 := w.extractLsb' 30 2
def rd (w : Word) : RegNum := w.extractLsb' 25 5
def aBit (w : Word) : Bool := w.getLsbD 29
def condField (w : Word) : BitVec 4 := w.extractLsb' 25 4
def op2Field (w : Word) : BitVec 3 := w.extractLsb' 22 3
def imm22 (w : Word) : BitVec 22 := w.extractLsb' 0 22
def disp30 (w : Word) : BitVec 30 := w.extractLsb' 0 30
def op3Field (w : Word) : BitVec 6 := w.extractLsb' 19 6
def rs1 (w : Word) : RegNum := w.extractLsb' 14 5
def iBit (w : Word) : Bool := w.getLsbD 13
def asiField (w : Word) : BitVec 8 := w.extractLsb' 5 8
def simm13 (w : Word) : BitVec 13 := w.extractLsb' 0 13
def opf (w : Word) : BitVec 9 := w.extractLsb' 5 9
def rs2 (w : Word) : RegNum := w.extractLsb' 0 5
def imm7 (w : Word) : BitVec 7 := w.extractLsb' 0 7

def regImm (w : Word) : RegImm := if iBit w then .imm (simm13 w) else .reg (rs2 w)
def shiftArg (w : Word) : ShiftArg := if iBit w then .imm (rs2 w) else .reg (rs2 w)
def trapArg (w : Word) : TrapArg := if iBit w then .imm (imm7 w) else .reg (rs2 w)
def altArg (w : Word) : AltArg := if iBit w then .imm (simm13 w) else .reg (asiField w) (rs2 w)

/-- Why the decoder gives no instruction. -/
inductive DecodeError where
  /-- An unassigned `op2` or `op3` (30_encoding R320): the machine takes illegal_instruction. -/
  | unassigned
  /-- An unassigned `opf` of FPop1 or FPop2 (30_encoding R320): the machine takes fp_disabled or fp_exception. -/
  | unassignedFpop
  /-- Fewer than four bytes. No word of memory is this short. -/
  | truncated
  deriving DecidableEq, Repr

/-! ### The decoder -/

/-- Bicc by cond (30_encoding R310). -/
def decodeBicc (a : Bool) (d : BitVec 22) (cond : BitVec 4) : Instr :=
  match cond.toNat with
  | 0 => .bn a d
  | 1 => .be a d
  | 2 => .ble a d
  | 3 => .bl a d
  | 4 => .bleu a d
  | 5 => .bcs a d
  | 6 => .bneg a d
  | 7 => .bvs a d
  | 8 => .ba a d
  | 9 => .bne a d
  | 10 => .bg a d
  | 11 => .bge a d
  | 12 => .bgu a d
  | 13 => .bcc a d
  | 14 => .bpos a d
  | _ => .bvc a d

/-- FBfcc by cond (30_encoding R311). -/
def decodeFBfcc (a : Bool) (d : BitVec 22) (cond : BitVec 4) : Instr :=
  match cond.toNat with
  | 0 => .fbn a d
  | 1 => .fbne a d
  | 2 => .fblg a d
  | 3 => .fbul a d
  | 4 => .fbl a d
  | 5 => .fbug a d
  | 6 => .fbg a d
  | 7 => .fbu a d
  | 8 => .fba a d
  | 9 => .fbe a d
  | 10 => .fbue a d
  | 11 => .fbge a d
  | 12 => .fbuge a d
  | 13 => .fble a d
  | 14 => .fbule a d
  | _ => .fbo a d

/-- Ticc by cond (30_encoding R310, R312). -/
def decodeTicc (r : RegNum) (t : TrapArg) (cond : BitVec 4) : Instr :=
  match cond.toNat with
  | 0 => .tn r t
  | 1 => .te r t
  | 2 => .tle r t
  | 3 => .tl r t
  | 4 => .tleu r t
  | 5 => .tcs r t
  | 6 => .tneg r t
  | 7 => .tvs r t
  | 8 => .ta r t
  | 9 => .tne r t
  | 10 => .tg r t
  | 11 => .tge r t
  | 12 => .tgu r t
  | 13 => .tcc r t
  | 14 => .tpos r t
  | _ => .tvc r t

/-- Format 2, by op2 (30_encoding R305). NOP is the word with rd = 0 and imm22 = 0. -/
def decodeFormat2 (w : Word) : Except DecodeError Instr :=
  match (op2Field w).toNat with
  | 0 => .ok (.unimp (imm22 w))
  | 2 => .ok (decodeBicc (aBit w) (imm22 w) (condField w))
  | 4 => if rd w = 0 ∧ imm22 w = 0 then .ok .nop else .ok (.sethi (rd w) (imm22 w))
  | 6 => .ok (decodeFBfcc (aBit w) (imm22 w) (condField w))
  | 7 => .ok (.cbccc (aBit w) (condField w) (imm22 w))
  | _ => .error .unassigned

/-- FPop1 by opf (30_encoding R308). -/
def decodeFpop1 (w : Word) : Except DecodeError Instr :=
  match (opf w).toNat with
  | 0x001 => .ok (.fmovs (rd w) (rs2 w))
  | 0x005 => .ok (.fnegs (rd w) (rs2 w))
  | 0x009 => .ok (.fabss (rd w) (rs2 w))
  | 0x029 => .ok (.fsqrts (rd w) (rs2 w))
  | 0x02A => .ok (.fsqrtd (rd w) (rs2 w))
  | 0x02B => .ok (.fsqrtq (rd w) (rs2 w))
  | 0x041 => .ok (.fadds (rd w) (rs1 w) (rs2 w))
  | 0x042 => .ok (.faddd (rd w) (rs1 w) (rs2 w))
  | 0x043 => .ok (.faddq (rd w) (rs1 w) (rs2 w))
  | 0x045 => .ok (.fsubs (rd w) (rs1 w) (rs2 w))
  | 0x046 => .ok (.fsubd (rd w) (rs1 w) (rs2 w))
  | 0x047 => .ok (.fsubq (rd w) (rs1 w) (rs2 w))
  | 0x049 => .ok (.fmuls (rd w) (rs1 w) (rs2 w))
  | 0x04A => .ok (.fmuld (rd w) (rs1 w) (rs2 w))
  | 0x04B => .ok (.fmulq (rd w) (rs1 w) (rs2 w))
  | 0x04D => .ok (.fdivs (rd w) (rs1 w) (rs2 w))
  | 0x04E => .ok (.fdivd (rd w) (rs1 w) (rs2 w))
  | 0x04F => .ok (.fdivq (rd w) (rs1 w) (rs2 w))
  | 0x069 => .ok (.fsmuld (rd w) (rs1 w) (rs2 w))
  | 0x06E => .ok (.fdmulq (rd w) (rs1 w) (rs2 w))
  | 0x0C4 => .ok (.fitos (rd w) (rs2 w))
  | 0x0C6 => .ok (.fdtos (rd w) (rs2 w))
  | 0x0C7 => .ok (.fqtos (rd w) (rs2 w))
  | 0x0C8 => .ok (.fitod (rd w) (rs2 w))
  | 0x0C9 => .ok (.fstod (rd w) (rs2 w))
  | 0x0CB => .ok (.fqtod (rd w) (rs2 w))
  | 0x0CC => .ok (.fitoq (rd w) (rs2 w))
  | 0x0CD => .ok (.fstoq (rd w) (rs2 w))
  | 0x0CE => .ok (.fdtoq (rd w) (rs2 w))
  | 0x0D1 => .ok (.fstoi (rd w) (rs2 w))
  | 0x0D2 => .ok (.fdtoi (rd w) (rs2 w))
  | 0x0D3 => .ok (.fqtoi (rd w) (rs2 w))
  | _ => .error .unassignedFpop

/-- FPop2 by opf (30_encoding R309). -/
def decodeFpop2 (w : Word) : Except DecodeError Instr :=
  match (opf w).toNat with
  | 0x051 => .ok (.fcmps (rs1 w) (rs2 w))
  | 0x052 => .ok (.fcmpd (rs1 w) (rs2 w))
  | 0x053 => .ok (.fcmpq (rs1 w) (rs2 w))
  | 0x055 => .ok (.fcmpes (rs1 w) (rs2 w))
  | 0x056 => .ok (.fcmped (rs1 w) (rs2 w))
  | 0x057 => .ok (.fcmpeq (rs1 w) (rs2 w))
  | _ => .error .unassignedFpop

/-- `op` = 2, `op3` = 0x28: RDY, STBAR, RDASR (30_encoding R312; STBAR whatever its unused bits hold, R316, log entry 22). -/
def decodeReadY (w : Word) : Instr :=
  if rs1 w = 15 ∧ rd w = 0 then .stbar else if rs1 w = 0 then .rdy (rd w) else .rdasr (rd w) (rs1 w)

/-- `op` = 2, `op3` = 0x30: WRY, WRASR (30_encoding R312). -/
def decodeWriteY (w : Word) : Instr :=
  if rd w = 0 then .wry (rs1 w) (regImm w) else .wrasr (rd w) (rs1 w) (regImm w)

/-- Format 3, `op` = 2, by op3 (30_encoding R306). -/
def decodeOp2 (w : Word) : Except DecodeError Instr :=
  match (op3Field w).toNat with
  | 0x00 => .ok (.add (rd w) (rs1 w) (regImm w))
  | 0x01 => .ok (.and (rd w) (rs1 w) (regImm w))
  | 0x02 => .ok (.or (rd w) (rs1 w) (regImm w))
  | 0x03 => .ok (.xor (rd w) (rs1 w) (regImm w))
  | 0x04 => .ok (.sub (rd w) (rs1 w) (regImm w))
  | 0x05 => .ok (.andn (rd w) (rs1 w) (regImm w))
  | 0x06 => .ok (.orn (rd w) (rs1 w) (regImm w))
  | 0x07 => .ok (.xnor (rd w) (rs1 w) (regImm w))
  | 0x08 => .ok (.addx (rd w) (rs1 w) (regImm w))
  | 0x0A => .ok (.umul (rd w) (rs1 w) (regImm w))
  | 0x0B => .ok (.smul (rd w) (rs1 w) (regImm w))
  | 0x0C => .ok (.subx (rd w) (rs1 w) (regImm w))
  | 0x0E => .ok (.udiv (rd w) (rs1 w) (regImm w))
  | 0x0F => .ok (.sdiv (rd w) (rs1 w) (regImm w))
  | 0x10 => .ok (.addcc (rd w) (rs1 w) (regImm w))
  | 0x11 => .ok (.andcc (rd w) (rs1 w) (regImm w))
  | 0x12 => .ok (.orcc (rd w) (rs1 w) (regImm w))
  | 0x13 => .ok (.xorcc (rd w) (rs1 w) (regImm w))
  | 0x14 => .ok (.subcc (rd w) (rs1 w) (regImm w))
  | 0x15 => .ok (.andncc (rd w) (rs1 w) (regImm w))
  | 0x16 => .ok (.orncc (rd w) (rs1 w) (regImm w))
  | 0x17 => .ok (.xnorcc (rd w) (rs1 w) (regImm w))
  | 0x18 => .ok (.addxcc (rd w) (rs1 w) (regImm w))
  | 0x1A => .ok (.umulcc (rd w) (rs1 w) (regImm w))
  | 0x1B => .ok (.smulcc (rd w) (rs1 w) (regImm w))
  | 0x1C => .ok (.subxcc (rd w) (rs1 w) (regImm w))
  | 0x1E => .ok (.udivcc (rd w) (rs1 w) (regImm w))
  | 0x1F => .ok (.sdivcc (rd w) (rs1 w) (regImm w))
  | 0x20 => .ok (.taddcc (rd w) (rs1 w) (regImm w))
  | 0x21 => .ok (.tsubcc (rd w) (rs1 w) (regImm w))
  | 0x22 => .ok (.taddcctv (rd w) (rs1 w) (regImm w))
  | 0x23 => .ok (.tsubcctv (rd w) (rs1 w) (regImm w))
  | 0x24 => .ok (.mulscc (rd w) (rs1 w) (regImm w))
  | 0x25 => .ok (.sll (rd w) (rs1 w) (shiftArg w))
  | 0x26 => .ok (.srl (rd w) (rs1 w) (shiftArg w))
  | 0x27 => .ok (.sra (rd w) (rs1 w) (shiftArg w))
  | 0x28 => .ok (decodeReadY w)
  | 0x29 => .ok (.rdpsr (rd w))
  | 0x2A => .ok (.rdwim (rd w))
  | 0x2B => .ok (.rdtbr (rd w))
  | 0x30 => .ok (decodeWriteY w)
  | 0x31 => .ok (.wrpsr (rs1 w) (regImm w))
  | 0x32 => .ok (.wrwim (rs1 w) (regImm w))
  | 0x33 => .ok (.wrtbr (rs1 w) (regImm w))
  | 0x34 => decodeFpop1 w
  | 0x35 => decodeFpop2 w
  | 0x36 => .ok (.cpop1 (rd w) (rs1 w) (opf w) (rs2 w))
  | 0x37 => .ok (.cpop2 (rd w) (rs1 w) (opf w) (rs2 w))
  | 0x38 => .ok (.jmpl (rd w) (rs1 w) (regImm w))
  | 0x39 => .ok (.rett (rs1 w) (regImm w))
  | 0x3A => .ok (decodeTicc (rs1 w) (trapArg w) (condField w))
  | 0x3B => .ok (.flush (rs1 w) (regImm w))
  | 0x3C => .ok (.save (rd w) (rs1 w) (regImm w))
  | 0x3D => .ok (.restore (rd w) (rs1 w) (regImm w))
  | 0x3E => .ok (.mac3e (rd w) (rs1 w) (regImm w))
  | 0x3F => .ok (.mac3f (rd w) (rs1 w) (regImm w))
  | _ => .error .unassigned

/-- Format 3, `op` = 3, by op3 (30_encoding R307). -/
def decodeOp3 (w : Word) : Except DecodeError Instr :=
  match (op3Field w).toNat with
  | 0x00 => .ok (.ld (rd w) (rs1 w) (regImm w))
  | 0x01 => .ok (.ldub (rd w) (rs1 w) (regImm w))
  | 0x02 => .ok (.lduh (rd w) (rs1 w) (regImm w))
  | 0x03 => .ok (.ldd (rd w) (rs1 w) (regImm w))
  | 0x04 => .ok (.st (rd w) (rs1 w) (regImm w))
  | 0x05 => .ok (.stb (rd w) (rs1 w) (regImm w))
  | 0x06 => .ok (.sth (rd w) (rs1 w) (regImm w))
  | 0x07 => .ok (.std (rd w) (rs1 w) (regImm w))
  | 0x09 => .ok (.ldsb (rd w) (rs1 w) (regImm w))
  | 0x0A => .ok (.ldsh (rd w) (rs1 w) (regImm w))
  | 0x0D => .ok (.ldstub (rd w) (rs1 w) (regImm w))
  | 0x0F => .ok (.swap (rd w) (rs1 w) (regImm w))
  | 0x10 => .ok (.lda (rd w) (rs1 w) (altArg w))
  | 0x11 => .ok (.lduba (rd w) (rs1 w) (altArg w))
  | 0x12 => .ok (.lduha (rd w) (rs1 w) (altArg w))
  | 0x13 => .ok (.ldda (rd w) (rs1 w) (altArg w))
  | 0x14 => .ok (.sta (rd w) (rs1 w) (altArg w))
  | 0x15 => .ok (.stba (rd w) (rs1 w) (altArg w))
  | 0x16 => .ok (.stha (rd w) (rs1 w) (altArg w))
  | 0x17 => .ok (.stda (rd w) (rs1 w) (altArg w))
  | 0x19 => .ok (.ldsba (rd w) (rs1 w) (altArg w))
  | 0x1A => .ok (.ldsha (rd w) (rs1 w) (altArg w))
  | 0x1D => .ok (.ldstuba (rd w) (rs1 w) (altArg w))
  | 0x1F => .ok (.swapa (rd w) (rs1 w) (altArg w))
  | 0x20 => .ok (.ldf (rd w) (rs1 w) (regImm w))
  | 0x21 => .ok (.ldfsr (rs1 w) (regImm w))
  | 0x23 => .ok (.lddf (rd w) (rs1 w) (regImm w))
  | 0x24 => .ok (.stf (rd w) (rs1 w) (regImm w))
  | 0x25 => .ok (.stfsr (rs1 w) (regImm w))
  | 0x26 => .ok (.stdfq (rs1 w) (regImm w))
  | 0x27 => .ok (.stdf (rd w) (rs1 w) (regImm w))
  | 0x30 => .ok (.ldc (rd w) (rs1 w) (regImm w))
  | 0x31 => .ok (.ldcsr (rd w) (rs1 w) (regImm w))
  | 0x33 => .ok (.lddc (rd w) (rs1 w) (regImm w))
  | 0x34 => .ok (.stc (rd w) (rs1 w) (regImm w))
  | 0x35 => .ok (.stcsr (rd w) (rs1 w) (regImm w))
  | 0x36 => .ok (.stdcq (rd w) (rs1 w) (regImm w))
  | 0x37 => .ok (.stdc (rd w) (rs1 w) (regImm w))
  | _ => .error .unassigned

/-- The instruction of a word, by op (30_encoding R301, R315). Total; an unassigned encoding is rejected by name. -/
def decode (w : Word) : Except DecodeError Instr :=
  match (opField w).toNat with
  | 0 => decodeFormat2 w
  | 1 => .ok (.call (disp30 w))
  | 2 => decodeOp2 w
  | _ => decodeOp3 w

/-- The word whose bytes, lowest address first, are `a b c d` (20_memory R201). -/
def wordOfBytes (a b c d : Byte) : Word := a ++ b ++ c ++ d

/-- The bytes of a word, lowest address first (20_memory R201). -/
def bytesOfWord (w : Word) : List Byte :=
  [w.extractLsb' 24 8, w.extractLsb' 16 8, w.extractLsb' 8 8, w.extractLsb' 0 8]

/-- The instruction at the head of a list of bytes, with the bytes after it (30_encoding R300). -/
def decodeBytes : List Byte → Except DecodeError (Instr × List Byte)
  | a :: b :: c :: d :: rest =>
    match decode (wordOfBytes a b c d) with
    | .ok i => .ok (i, rest)
    | .error e => .error e
  | _ => .error .truncated

/-- The instruction this decoder reads from a word of spec/opcode_table.json. Every row is one 32-bit word (30_encoding R300),
stored big-endian. -/
def decodeTableWord (_nbits w : Nat) : Option Instr :=
  match decodeBytes (bytesOfWord (BitVec.ofNat 32 w)) with
  | .ok (i, _) => some i
  | .error _ => none

/-! ### The encoder. Unused fields are zero (30_encoding R316). -/

/-- Format 1 (30_encoding R301). -/
def fmt1 (d : BitVec 30) : Word := 1#2 ++ d
/-- Format 2 with rd (30_encoding R301). -/
def fmt2 (r : RegNum) (o : BitVec 3) (imm : BitVec 22) : Word := 0#2 ++ r ++ o ++ imm
/-- Format 2 of a branch (30_encoding R301). -/
def fmt2b (a : Bool) (cond : BitVec 4) (o : BitVec 3) (d : BitVec 22) : Word := 0#2 ++ BitVec.ofBool a ++ cond ++ o ++ d
/-- Format 3, register form (30_encoding R301). -/
def fmt3r (o : BitVec 2) (r : RegNum) (o3 : BitVec 6) (r1 : RegNum) (asi : BitVec 8) (r2 : RegNum) : Word :=
  o ++ r ++ o3 ++ r1 ++ 0#1 ++ asi ++ r2
/-- Format 3, immediate form (30_encoding R301). -/
def fmt3i (o : BitVec 2) (r : RegNum) (o3 : BitVec 6) (r1 : RegNum) (imm : BitVec 13) : Word :=
  o ++ r ++ o3 ++ r1 ++ 1#1 ++ imm
/-- Format 3 with opf (30_encoding R301). -/
def fmt3f (r : RegNum) (o3 : BitVec 6) (r1 : RegNum) (f : BitVec 9) (r2 : RegNum) : Word :=
  2#2 ++ r ++ o3 ++ r1 ++ f ++ r2

def encRegImm (o : BitVec 2) (r : RegNum) (o3 : BitVec 6) (r1 : RegNum) : RegImm → Word
  | .reg r2 => fmt3r o r o3 r1 0 r2
  | .imm s => fmt3i o r o3 r1 s
def encShift (r : RegNum) (o3 : BitVec 6) (r1 : RegNum) : ShiftArg → Word
  | .reg r2 => fmt3r 2 r o3 r1 0 r2
  | .imm n => fmt3i 2 r o3 r1 (0#8 ++ n)
def encTicc (cond : BitVec 4) (r1 : RegNum) : TrapArg → Word
  | .reg r2 => fmt3r 2 (0#1 ++ cond) 0x3A r1 0 r2
  | .imm n => fmt3i 2 (0#1 ++ cond) 0x3A r1 (0#6 ++ n)
def encAlt (r : RegNum) (o3 : BitVec 6) (r1 : RegNum) : AltArg → Word
  | .reg asi r2 => fmt3r 3 r o3 r1 asi r2
  | .imm s => fmt3i 3 r o3 r1 s

/-- The word of an instruction (30_encoding R301 to R312). -/
def encode : Instr → Word
  | .call d => fmt1 d
  | .unimp c => fmt2 0 0 c
  | .nop => fmt2 0 4 0
  | .sethi r c => fmt2 r 4 c
  | .ba a d => fmt2b a 8 2 d
  | .bn a d => fmt2b a 0 2 d
  | .bne a d => fmt2b a 9 2 d
  | .be a d => fmt2b a 1 2 d
  | .bg a d => fmt2b a 10 2 d
  | .ble a d => fmt2b a 2 2 d
  | .bge a d => fmt2b a 11 2 d
  | .bl a d => fmt2b a 3 2 d
  | .bgu a d => fmt2b a 12 2 d
  | .bleu a d => fmt2b a 4 2 d
  | .bcc a d => fmt2b a 13 2 d
  | .bcs a d => fmt2b a 5 2 d
  | .bpos a d => fmt2b a 14 2 d
  | .bneg a d => fmt2b a 6 2 d
  | .bvc a d => fmt2b a 15 2 d
  | .bvs a d => fmt2b a 7 2 d
  | .fbn a d => fmt2b a 0 6 d
  | .fbne a d => fmt2b a 1 6 d
  | .fblg a d => fmt2b a 2 6 d
  | .fbul a d => fmt2b a 3 6 d
  | .fbl a d => fmt2b a 4 6 d
  | .fbug a d => fmt2b a 5 6 d
  | .fbg a d => fmt2b a 6 6 d
  | .fbu a d => fmt2b a 7 6 d
  | .fba a d => fmt2b a 8 6 d
  | .fbe a d => fmt2b a 9 6 d
  | .fbue a d => fmt2b a 10 6 d
  | .fbge a d => fmt2b a 11 6 d
  | .fbuge a d => fmt2b a 12 6 d
  | .fble a d => fmt2b a 13 6 d
  | .fbule a d => fmt2b a 14 6 d
  | .fbo a d => fmt2b a 15 6 d
  | .cbccc a k d => fmt2b a k 7 d
  | .add r r1 x => encRegImm 2 r 0x00 r1 x
  | .and r r1 x => encRegImm 2 r 0x01 r1 x
  | .or r r1 x => encRegImm 2 r 0x02 r1 x
  | .xor r r1 x => encRegImm 2 r 0x03 r1 x
  | .sub r r1 x => encRegImm 2 r 0x04 r1 x
  | .andn r r1 x => encRegImm 2 r 0x05 r1 x
  | .orn r r1 x => encRegImm 2 r 0x06 r1 x
  | .xnor r r1 x => encRegImm 2 r 0x07 r1 x
  | .addx r r1 x => encRegImm 2 r 0x08 r1 x
  | .umul r r1 x => encRegImm 2 r 0x0A r1 x
  | .smul r r1 x => encRegImm 2 r 0x0B r1 x
  | .subx r r1 x => encRegImm 2 r 0x0C r1 x
  | .udiv r r1 x => encRegImm 2 r 0x0E r1 x
  | .sdiv r r1 x => encRegImm 2 r 0x0F r1 x
  | .addcc r r1 x => encRegImm 2 r 0x10 r1 x
  | .andcc r r1 x => encRegImm 2 r 0x11 r1 x
  | .orcc r r1 x => encRegImm 2 r 0x12 r1 x
  | .xorcc r r1 x => encRegImm 2 r 0x13 r1 x
  | .subcc r r1 x => encRegImm 2 r 0x14 r1 x
  | .andncc r r1 x => encRegImm 2 r 0x15 r1 x
  | .orncc r r1 x => encRegImm 2 r 0x16 r1 x
  | .xnorcc r r1 x => encRegImm 2 r 0x17 r1 x
  | .addxcc r r1 x => encRegImm 2 r 0x18 r1 x
  | .umulcc r r1 x => encRegImm 2 r 0x1A r1 x
  | .smulcc r r1 x => encRegImm 2 r 0x1B r1 x
  | .subxcc r r1 x => encRegImm 2 r 0x1C r1 x
  | .udivcc r r1 x => encRegImm 2 r 0x1E r1 x
  | .sdivcc r r1 x => encRegImm 2 r 0x1F r1 x
  | .taddcc r r1 x => encRegImm 2 r 0x20 r1 x
  | .tsubcc r r1 x => encRegImm 2 r 0x21 r1 x
  | .taddcctv r r1 x => encRegImm 2 r 0x22 r1 x
  | .tsubcctv r r1 x => encRegImm 2 r 0x23 r1 x
  | .mulscc r r1 x => encRegImm 2 r 0x24 r1 x
  | .sll r r1 x => encShift r 0x25 r1 x
  | .srl r r1 x => encShift r 0x26 r1 x
  | .sra r r1 x => encShift r 0x27 r1 x
  | .stbar => fmt3r 2 0 0x28 15 0 0
  | .rdy r => fmt3r 2 r 0x28 0 0 0
  | .rdasr r n => fmt3r 2 r 0x28 n 0 0
  | .rdpsr r => fmt3r 2 r 0x29 0 0 0
  | .rdwim r => fmt3r 2 r 0x2A 0 0 0
  | .rdtbr r => fmt3r 2 r 0x2B 0 0 0
  | .wry r1 x => encRegImm 2 0 0x30 r1 x
  | .wrasr n r1 x => encRegImm 2 n 0x30 r1 x
  | .wrpsr r1 x => encRegImm 2 0 0x31 r1 x
  | .wrwim r1 x => encRegImm 2 0 0x32 r1 x
  | .wrtbr r1 x => encRegImm 2 0 0x33 r1 x
  | .fmovs r r2 => fmt3f r 0x34 0 0x001 r2
  | .fnegs r r2 => fmt3f r 0x34 0 0x005 r2
  | .fabss r r2 => fmt3f r 0x34 0 0x009 r2
  | .fsqrts r r2 => fmt3f r 0x34 0 0x029 r2
  | .fsqrtd r r2 => fmt3f r 0x34 0 0x02A r2
  | .fadds r r1 r2 => fmt3f r 0x34 r1 0x041 r2
  | .faddd r r1 r2 => fmt3f r 0x34 r1 0x042 r2
  | .fsubs r r1 r2 => fmt3f r 0x34 r1 0x045 r2
  | .fsubd r r1 r2 => fmt3f r 0x34 r1 0x046 r2
  | .fmuls r r1 r2 => fmt3f r 0x34 r1 0x049 r2
  | .fmuld r r1 r2 => fmt3f r 0x34 r1 0x04A r2
  | .fdivs r r1 r2 => fmt3f r 0x34 r1 0x04D r2
  | .fdivd r r1 r2 => fmt3f r 0x34 r1 0x04E r2
  | .fsmuld r r1 r2 => fmt3f r 0x34 r1 0x069 r2
  | .fitos r r2 => fmt3f r 0x34 0 0x0C4 r2
  | .fdtos r r2 => fmt3f r 0x34 0 0x0C6 r2
  | .fitod r r2 => fmt3f r 0x34 0 0x0C8 r2
  | .fstod r r2 => fmt3f r 0x34 0 0x0C9 r2
  | .fstoi r r2 => fmt3f r 0x34 0 0x0D1 r2
  | .fdtoi r r2 => fmt3f r 0x34 0 0x0D2 r2
  | .fsqrtq r r2 => fmt3f r 0x34 0 0x02B r2
  | .faddq r r1 r2 => fmt3f r 0x34 r1 0x043 r2
  | .fsubq r r1 r2 => fmt3f r 0x34 r1 0x047 r2
  | .fmulq r r1 r2 => fmt3f r 0x34 r1 0x04B r2
  | .fdivq r r1 r2 => fmt3f r 0x34 r1 0x04F r2
  | .fdmulq r r1 r2 => fmt3f r 0x34 r1 0x06E r2
  | .fqtos r r2 => fmt3f r 0x34 0 0x0C7 r2
  | .fqtod r r2 => fmt3f r 0x34 0 0x0CB r2
  | .fitoq r r2 => fmt3f r 0x34 0 0x0CC r2
  | .fstoq r r2 => fmt3f r 0x34 0 0x0CD r2
  | .fdtoq r r2 => fmt3f r 0x34 0 0x0CE r2
  | .fqtoi r r2 => fmt3f r 0x34 0 0x0D3 r2
  | .fcmps r1 r2 => fmt3f 0 0x35 r1 0x051 r2
  | .fcmpd r1 r2 => fmt3f 0 0x35 r1 0x052 r2
  | .fcmpes r1 r2 => fmt3f 0 0x35 r1 0x055 r2
  | .fcmped r1 r2 => fmt3f 0 0x35 r1 0x056 r2
  | .fcmpq r1 r2 => fmt3f 0 0x35 r1 0x053 r2
  | .fcmpeq r1 r2 => fmt3f 0 0x35 r1 0x057 r2
  | .cpop1 r r1 f r2 => fmt3f r 0x36 r1 f r2
  | .cpop2 r r1 f r2 => fmt3f r 0x37 r1 f r2
  | .jmpl r r1 x => encRegImm 2 r 0x38 r1 x
  | .rett r1 x => encRegImm 2 0 0x39 r1 x
  | .ta r1 x => encTicc 8 r1 x
  | .tn r1 x => encTicc 0 r1 x
  | .tne r1 x => encTicc 9 r1 x
  | .te r1 x => encTicc 1 r1 x
  | .tg r1 x => encTicc 10 r1 x
  | .tle r1 x => encTicc 2 r1 x
  | .tge r1 x => encTicc 11 r1 x
  | .tl r1 x => encTicc 3 r1 x
  | .tgu r1 x => encTicc 12 r1 x
  | .tleu r1 x => encTicc 4 r1 x
  | .tcc r1 x => encTicc 13 r1 x
  | .tcs r1 x => encTicc 5 r1 x
  | .tpos r1 x => encTicc 14 r1 x
  | .tneg r1 x => encTicc 6 r1 x
  | .tvc r1 x => encTicc 15 r1 x
  | .tvs r1 x => encTicc 7 r1 x
  | .flush r1 x => encRegImm 2 0 0x3B r1 x
  | .save r r1 x => encRegImm 2 r 0x3C r1 x
  | .restore r r1 x => encRegImm 2 r 0x3D r1 x
  | .mac3e r r1 x => encRegImm 2 r 0x3E r1 x
  | .mac3f r r1 x => encRegImm 2 r 0x3F r1 x
  | .ld r r1 x => encRegImm 3 r 0x00 r1 x
  | .ldub r r1 x => encRegImm 3 r 0x01 r1 x
  | .lduh r r1 x => encRegImm 3 r 0x02 r1 x
  | .ldd r r1 x => encRegImm 3 r 0x03 r1 x
  | .st r r1 x => encRegImm 3 r 0x04 r1 x
  | .stb r r1 x => encRegImm 3 r 0x05 r1 x
  | .sth r r1 x => encRegImm 3 r 0x06 r1 x
  | .std r r1 x => encRegImm 3 r 0x07 r1 x
  | .ldsb r r1 x => encRegImm 3 r 0x09 r1 x
  | .ldsh r r1 x => encRegImm 3 r 0x0A r1 x
  | .ldstub r r1 x => encRegImm 3 r 0x0D r1 x
  | .swap r r1 x => encRegImm 3 r 0x0F r1 x
  | .lda r r1 x => encAlt r 0x10 r1 x
  | .lduba r r1 x => encAlt r 0x11 r1 x
  | .lduha r r1 x => encAlt r 0x12 r1 x
  | .ldda r r1 x => encAlt r 0x13 r1 x
  | .sta r r1 x => encAlt r 0x14 r1 x
  | .stba r r1 x => encAlt r 0x15 r1 x
  | .stha r r1 x => encAlt r 0x16 r1 x
  | .stda r r1 x => encAlt r 0x17 r1 x
  | .ldsba r r1 x => encAlt r 0x19 r1 x
  | .ldsha r r1 x => encAlt r 0x1A r1 x
  | .ldstuba r r1 x => encAlt r 0x1D r1 x
  | .swapa r r1 x => encAlt r 0x1F r1 x
  | .ldf r r1 x => encRegImm 3 r 0x20 r1 x
  | .ldfsr r1 x => encRegImm 3 0 0x21 r1 x
  | .lddf r r1 x => encRegImm 3 r 0x23 r1 x
  | .stf r r1 x => encRegImm 3 r 0x24 r1 x
  | .stfsr r1 x => encRegImm 3 0 0x25 r1 x
  | .stdfq r1 x => encRegImm 3 0 0x26 r1 x
  | .stdf r r1 x => encRegImm 3 r 0x27 r1 x
  | .ldc r r1 x => encRegImm 3 r 0x30 r1 x
  | .ldcsr r r1 x => encRegImm 3 r 0x31 r1 x
  | .lddc r r1 x => encRegImm 3 r 0x33 r1 x
  | .stc r r1 x => encRegImm 3 r 0x34 r1 x
  | .stcsr r r1 x => encRegImm 3 r 0x35 r1 x
  | .stdcq r r1 x => encRegImm 3 r 0x36 r1 x
  | .stdc r r1 x => encRegImm 3 r 0x37 r1 x

end Sys2Proof
end

