-- ==== Sys2Proof/Machine/State.lean ====
section
/-! DEFINITION. The whole state of the machine as plain data, its reset value, and the reasons a step can stop
(10_state, 11_state_pci_dsu, 70 R800). INVENTORY.md lists every field with its rule. -/

namespace Sys2Proof.Machine

/-- A word of the register file with the set of its 39 stored bits that differ from a valid code word: bits 31:0 are data bits,
38:32 check bits (20_memory R260). `data` is what the data bits hold. -/
structure RegWord where
  data : Word
  flip : BitVec 39
  deriving DecidableEq, Repr

/-- PSR without its constant fields impl, ver and EC (10_state R26). `res` is bits 19:14. -/
structure Psr where
  n : Bool
  z : Bool
  v : Bool
  c : Bool
  res : BitVec 6
  ef : Bool
  pil : BitVec 4
  s : Bool
  ps : Bool
  et : Bool
  cwp : BitVec 3
  deriving DecidableEq, Repr

/-- ASR16, register-file EDAC control (10_state R32). -/
structure Asr16 where
  cb : BitVec 4
  tcb : BitVec 7
  cnt : BitVec 16
  deriving DecidableEq, Repr

/-- One watchpoint register pair of ASR24 to ASR31 (10_state R35). -/
structure Watchpoint where
  waddr : BitVec 30
  ifEn : Bool
  wmask : BitVec 30
  dl : Bool
  ds : Bool
  deriving DecidableEq, Repr

/-- FSR without its constant fields ver, qne and the fields that read 0 (10_state R37). -/
structure Fsr where
  rd : BitVec 2
  tem : BitVec 5
  ns : Bool
  ftt : BitVec 3
  fcc : BitVec 2
  aexc : BitVec 5
  cexc : BitVec 5
  deriving DecidableEq, Repr

/-- A cached word or tag: its stored value and which of its data and parity bits differ from a word with good parity
(20_memory R254). -/
structure CacheWord where
  val : Word
  dflip : Word
  pflip : BitVec 4
  deriving DecidableEq, Repr

/-- Contents of one cache (20_memory R243). Tags are keyed by way * sets + set, data by way * 2048 + word offset, `lru` by set:
the ways, least recently used first. Unlisted entries are 0, and the way order 0, 1, 2, 3 (log entry 8). -/
structure Cache where
  tags : List (Nat × CacheWord)
  data : List (Nat × CacheWord)
  lru : List (Nat × List Nat)
  deriving DecidableEq, Repr

/-- One timer (10_state R61 to R63, R65 to R67). -/
structure Timer where
  val : Word
  rld : Word
  ctrl : Word
  deriving DecidableEq, Repr

/-- One UART (61 R720). `stat` holds the software-written bits of the status register (31:3); `left` is the number of ticks until
the frame being sent ends. -/
structure Uart where
  thr : Byte
  thrFull : Bool
  tsr : Byte
  tsrBusy : Bool
  rhr : Byte
  dr : Bool
  rsr : Byte
  rsrFull : Bool
  stat : Word
  ctrl : Word
  scalerRld : Word
  scaler : BitVec 12
  rtsn : Bool
  left : Nat
  deriving DecidableEq, Repr

/-- The on-chip registers at 0x80000000 (10_state R42 to R84). HMAST of the AHB status register is `ahbMaster`. -/
structure Dev where
  mcfg1 : Word
  mcfg2 : Word
  mcfg3 : Word
  ahbFail : Word
  ahbStat : Word
  ahbMaster : BitVec 4
  ccr : Word
  ccr1 : Word
  ccr2 : Word
  ccr3 : Word
  wpr1 : Word
  wpr2 : Word
  mecfg1 : Word
  mecfg2 : Word
  mecfg3 : Word
  tim1 : Timer
  tim2 : Timer
  wdog : Word
  wdogAsserted : Bool
  psc : Word
  pscRld : Word
  uart1 : Uart
  uart2 : Uart
  uart3 : Uart
  ilevelMask : Word
  ipend : BitVec 16
  iforce : BitVec 16
  iodat : Word
  iodir : BitVec 18
  ioit : Word
  ioPrev : Word
  dsuUartCtrl : Word
  dsuUartStat : Word
  dsuUartScaler : Word
  deriving DecidableEq, Repr

/-- One DMA channel (11 R93 to R99, 61 R745 to R748). `ctrl` is the control word as last written, `left` the bytes still to move
while `running`, `cmd` and `pciIrq` COMMAND and PCI INTERRUPT of the word that started the transfer, `sizeOpen` whether TRANSFER SIZE
reads an open value (93 I60). -/
structure Dma where
  pciAddr : Word
  ahbAddr : Word
  ctrl : Word
  running : Bool
  left : Nat
  cmd : BitVec 4
  pciIrq : Bool
  sizeOpen : Bool
  deriving DecidableEq, Repr

/-- Words a window of the bridge has read ahead and holds: the address of the first of them, and the time (`State.clk`) from which they
wait to be fetched (61 R741 to R744; log entry 54). -/
structure Held where
  addr : Word
  words : List Word
  since : Nat
  deriving DecidableEq, Repr

/-- The PCI bridge (11 R92 to R124). `heldPci` is what the prefetchable AHB-PCI window holds of PCI data, `heldAhb` what the
prefetchable PCI-AHB window holds of AHB data. -/
structure Pci where
  wdma : Dma
  rdma : Dma
  imask : Word
  istatus : Word
  addrNp : Word
  addrPf : Word
  pciahbTimer : Word
  ahbpciTimer : Word
  masterEn : Bool
  memoryEn : Bool
  ready : Bool
  dv : Word
  sub : Word
  crev : Word
  broken : BitVec 8
  sizNp : Word
  sizPf : Word
  gImask : Word
  gIstatus : Word
  bar3 : Word
  bar4 : Word
  bar5 : Word
  heldPci : Held
  heldAhb : Held
  deriving DecidableEq, Repr

/-- The debug support unit (11 R130 to R156, 61 R760 to R770). `hitInstr`, `stepping` and `breakReq` are the model's: an
instruction breakpoint hit on the instruction being executed, a single step under way, a break to take at the next boundary. -/
structure Dsu where
  ctrl : Word
  bpAddr1 : Word
  bpMask1 : Word
  bpAddr2 : Word
  bpMask2 : Word
  dtr : BitVec 8
  iidx : BitVec 9
  aidx : BitVec 9
  ti : Bool
  ta : Bool
  timeTag : BitVec 30
  trace : List (Nat × BitVec 128)
  frozen : Bool
  hitInstr : Bool
  stepping : Bool
  breakReq : Bool
  deriving DecidableEq, Repr

/-- Levels of the input pins (61 R712, R715, R727, R754, R786; 20 R220). DESIGN CHOICE: BRDYN is fixed as always ready, as 20_memory R229
(d) lets a model do, so it is no field (log entry 30). -/
structure Pins where
  pio : BitVec 16
  d : BitVec 16
  bexcn : Bool
  cts1 : Bool
  cts2 : Bool
  cts3 : Bool
  dsuen : Bool
  dsubre : Bool
  /-- PCI interrupt lines INTA# to INTD#, bit k true when the line is asserted. -/
  pciInt : BitVec 4
  deriving DecidableEq, Repr

/-- The three UARTs (61 R720). -/
inductive UartId where
  | u1
  | u2
  | u3
  deriving DecidableEq, Repr

/-- The two DMA channels (61 R745). -/
inductive DmaChannel where
  | write
  | read
  deriving DecidableEq, Repr

/-- What the outside can do at a step boundary (INVENTORY.md, Host interface; log entry 13). -/
inductive EnvEvent where
  /-- The input pins take these levels. -/
  | setPins (p : Pins)
  /-- A frame arrives at a UART (61 R733). -/
  | uartRx (u : UartId) (b : Byte) (parity framing brk : Bool)
  /-- A PCI master reads or writes one word through a PCI-AHB window (61 R743). With a read through the prefetchable window the bridge
  reads `ahead` further words ahead (log entry 54). -/
  | pciRead (addr : Word) (ahead : Nat)
  | pciWrite (addr : Word) (data : Word)
  /-- The external host reads or writes the configuration space of a Guest bridge (11 R120 to R124), by its offset. -/
  | pciCfgRead (offset : BitVec 8)
  | pciCfgWrite (offset : BitVec 8) (data : Word)
  /-- The external host sets a base address register, 3, 4 or 5 (11 R120). -/
  | pciSetBar (bar : BitVec 3) (base : Word)
  /-- The external host sets MasterEN and MemoryEN of a Guest bridge (11 R108). -/
  | pciEnables (master memory : Bool)
  /-- BridgePCIReady becomes 1 (11 R108). -/
  | pciReady
  /-- RST# from the external host of a Guest bridge (61 R752). -/
  | pciRst
  /-- The arbiter judges a PCI master broken (61 R753). -/
  | pciBroken (k : BitVec 3)
  /-- A cause of CPU_ISTATUS that comes from the PCI side: the failure of a posted write (bit 12), SERR# (bit 28) (61 R742, R754). -/
  | pciStatus (bits : Word)
  /-- The next piece of a running DMA moves. `answer` is what the PCI target gives: data or an abort (61 R747, R748). -/
  | dmaMove (ch : DmaChannel) (answer : Option Word)
  /-- A PCI parity error ends a running DMA (61 R748). -/
  | dmaParity (ch : DmaChannel)
  /-- The DSU link reads or writes one word (61 R780). -/
  | linkRead (addr : Word)
  | linkWrite (addr : Word) (data : Word)
  /-- The DSU link receives a whole command, byte by byte as its format has it (61 R781). -/
  | linkCommand (bytes : List Byte)
  /-- The serial side of the DSU link shows FE, OV, TH, TS and DR as in these bits (10_state R83). -/
  | linkStatus (bits : Word)
  /-- The DSU link locks its baud rate, or receives a break (61 R784). -/
  | linkBaud (reload : BitVec 18)
  | linkBreak
  /-- Radiation flips stored bits: of a memory word, an r register, an f register, a cache word (20 R229 (f)). -/
  | upsetMem (word : BitVec 30) (f : BitVec 39)
  | upsetIreg (i : Fin 136) (f : BitVec 39)
  | upsetFreg (i : Fin 32) (f : BitVec 39)
  | upsetCache (instr tag : Bool) (key : BitVec 13) (d : Word) (p : BitVec 4)
  /-- The pin Resetn (70 R801). -/
  | reset
  deriving DecidableEq, Repr

/-- What the environment does after one step: `clocks + 1` clock cycles pass and the events happen, in the order of 70 R840. -/
structure EnvStep where
  clocks : Nat
  events : List EnvEvent
  deriving DecidableEq, Repr

/-- The answer of a device or a PCI target to a read: data or a failure. With data through the prefetchable AHB-PCI window come the words
at the addresses that follow, which the bridge reads ahead (61 R741; log entries 14, 54). -/
structure BusAnswer where
  data : Option Word
  ahead : List Word
  deriving DecidableEq, Repr

/-- Levels of the output pins (61 R710, R727, R728, R755, R760; 60 R646, R684): RTSN of each UART, WDOGN, ERRORN, DSUACT and INTA#
(each true when asserted, but `rtsn`, which is the level), which port lines are driven, and the levels driven. -/
structure OutPins where
  rtsn1 : Bool
  rtsn2 : Bool
  rtsn3 : Bool
  wdog : Bool
  errorn : Bool
  dsuact : Bool
  inta : Bool
  pioDriven : Word
  pioLevel : Word
  deriving DecidableEq, Repr

/-- What the machine hands to the outside (log entry 34). -/
inductive Output where
  | uartTx (u : UartId) (b : Byte)
  | ioRead (addr : Word) (size : BitVec 4)
  | ioWrite (addr : Word) (size : BitVec 4) (data : Word)
  | pciRead (cmd : BitVec 4) (addr : Word) (size : BitVec 4)
  | pciWrite (cmd : BitVec 4) (addr : Word) (size : BitVec 4) (data : Word)
  | pciAnswer (data : Option Word)
  | pciBusReset
  | pins (p : OutPins)
  | linkData (data : Word)
  | linkResponse
  deriving DecidableEq, Repr

/-- The machine. `clk` is the model clock, in cycles (70 R840). -/
structure State where
  ireg : Vector RegWord 136
  freg : Vector RegWord 32
  pc : Word
  npc : Word
  psr : Psr
  wim : BitVec 8
  tba : BitVec 20
  tt : BitVec 8
  y : Word
  asr16 : Asr16
  asr17 : Word
  asr18 : Word
  wp : Vector Watchpoint 4
  fsr : Fsr
  annul : Bool
  errorMode : Bool
  debugMode : Bool
  powerDown : Bool
  mem : List Host.Cell
  memFlip : List (Nat × BitVec 39)
  icache : Cache
  dcache : Cache
  dev : Dev
  pci : Pci
  dsu : Dsu
  trapped : Bool
  freeCtr : Nat
  clk : Nat
  pins : Pins
  env : List EnvStep
  busAnswers : List BusAnswer
  lines : OutPins
  out : List Output
  deriving DecidableEq, Repr

/-- The machine stops with a fault. BM3803MG has no such stop: every failed access is a trap, a trap with ET = 0 is error mode,
and both are next states (60 R640, R646). -/
inductive Fault where
  /-- Raised by nothing. Safe: no behaviour of the hardware is turned into it. -/
  | unreachable
  deriving DecidableEq, Repr

/-- The model has no meaning for what the program does. -/
inductive Refusal where
  /-- Raised by the dispatcher for an instruction whose meaning is not written. Safe: nothing is claimed of it. -/
  | notModelled (mnemonic : String)
  /-- Raised by the multiply-accumulate encodings (30 R322, 43 R531, parameter MAC_ENCODINGS). Safe: the spec refuses them too. -/
  | macEncoding
  /-- Raised by a byte, halfword or doubleword access to an on-chip or PCI bridge register that the spec lists (10_state R58, 93 I2;
  log entry 23). Safe: the spec refuses it too. -/
  | registerAccessWidth
  /-- Raised by a sub-word access or LDSTUBA with ASI 0xC to 0xF (93 I36; log entry 23). Safe: the spec refuses it too. -/
  | cacheDiagnosticWidth
  /-- Raised by starting a DMA with a command its channel does not list, or with size 0 (93 I20, 61 R747). Safe: the spec refuses
  it too. -/
  | dmaCommand
  /-- Raised by starting a DMA on a running channel, with STOP = 0 (93 I60; log entry 43). Safe: the spec refuses it too. -/
  | dmaRestart
  deriving DecidableEq, Repr

/-! ### Reset (70 R800). Where the spec gives no value: zero (log entries 1 to 12). -/

def RegWord.zero : RegWord := { data := 0, flip := 0 }

/-- `n` words of the register file at reset, the first at place `base`: valid check bits, or any (parameter
REGFILE_RESET_CHECKBITS_VALID, 70 R806). -/
def regFileReset (n base : Nat) : Vector RegWord n :=
  if Config.regfileResetCheckbitsValid then Vector.replicate n RegWord.zero
  else Vector.ofFn fun i => { data := 0, flip := Config.regfileResetFlip (base + i.val) }

/-- PSR = 0xB3021080 (10_state R26). -/
def Psr.reset : Psr :=
  { n := false, z := false, v := false, c := false, res := 0b001000#6, ef := true, pil := 0, s := true, ps := false, et := false,
    cwp := 0 }

def Watchpoint.reset : Watchpoint := { waddr := 0, ifEn := false, wmask := 0, dl := false, ds := false }

def Fsr.reset : Fsr := { rd := 0, tem := 0, ns := false, ftt := 0, fcc := 0, aexc := 0, cexc := 0 }

def Cache.reset : Cache := { tags := [], data := [], lru := [] }

def Timer.reset : Timer := { val := 0, rld := 0, ctrl := 0 }

def Uart.reset : Uart :=
  { thr := 0, thrFull := false, tsr := 0, tsrBusy := false, rhr := 0, dr := false, rsr := 0, rsrFull := false, stat := 0, ctrl := 0,
    scalerRld := 0, scaler := 0, rtsn := false, left := 0 }

/-- MCFG1, MCFG2 and MECFG1 hold the levels of the reset pins in PRWDH, ROMEEN and PRBS (70 R803). The DSU link is enabled, so that
a debugger can boot the machine through it (61 R785, 70 R805; log entry 8). -/
def Dev.reset : Dev :=
  { mcfg1 := 0x00F1F01F#32 ||| (Config.resetPio.extractLsb' 0 2).setWidth 32 <<< 8
    mcfg2 := 0x0007800F#32
    mcfg3 := 0, ahbFail := 0, ahbStat := 0, ahbMaster := 0, ccr := 0, ccr1 := 0x20000000#32, ccr2 := 0, ccr3 := 0, wpr1 := 0, wpr2 := 0
    mecfg1 := 0x00400300#32 ||| (Config.resetPio.extractLsb' 2 1).setWidth 32 <<< 26 ||| Config.resetRombsd.setWidth 32 <<< 14
    mecfg2 := 0, mecfg3 := 0, tim1 := Timer.reset, tim2 := Timer.reset, wdog := 0x00FFFFFF#32, wdogAsserted := false, psc := 0
    pscRld := 0x3FF#32, uart1 := Uart.reset, uart2 := Uart.reset, uart3 := Uart.reset, ilevelMask := 0, ipend := 0, iforce := 0
    iodat := 0, iodir := 0, ioit := 0, ioPrev := 0, dsuUartCtrl := 1, dsuUartStat := 0, dsuUartScaler := 0 }

def Dma.reset : Dma := { pciAddr := 0, ahbAddr := 0, ctrl := 0, running := false, left := 0, cmd := 0, pciIrq := false, sizeOpen := false }

def Held.empty : Held := { addr := 0, words := [], since := 0 }

def Pci.reset : Pci :=
  { wdma := Dma.reset, rdma := Dma.reset, imask := 0, istatus := 0, addrNp := 0, addrPf := 0, pciahbTimer := 0x100#32
    ahbpciTimer := 0x100#32, masterEn := Config.pciHostMode, memoryEn := Config.pciHostMode, ready := false, dv := 0x55551556#32
    sub := 0, crev := 0x04000000#32, broken := 0, sizNp := 0xFFFC0000#32, sizPf := 0xFFFC0000#32, gImask := 0, gIstatus := 0, bar3 := 0
    bar4 := 0, bar5 := 0, heldPci := Held.empty, heldAhb := Held.empty }

def Dsu.reset : Dsu :=
  { ctrl := 0, bpAddr1 := 0, bpMask1 := 0, bpAddr2 := 0, bpMask2 := 0, dtr := 0, iidx := 0, aidx := 0, ti := false, ta := false
    timeTag := 0, trace := [], frozen := false, hitInstr := false, stepping := false, breakReq := false }

/-- PIO[2:0] at their reset strapping, CTS1 to CTS3 low, which is clear to send (61 R727), BEXCN high, DSUEN and DSUBRE at their
parameters, every other pin low, PCI interrupts not asserted (DESIGN CHOICE, log entry 11). -/
def Pins.reset : Pins :=
  { pio := Config.resetPio.setWidth 16, d := 0, bexcn := true, cts1 := false, cts2 := false, cts3 := false
    dsuen := Config.dsuenPin, dsubre := Config.dsubrePin, pciInt := 0 }

/-- The output pins right after reset: nothing asserted, no port line driven (log entry 49). -/
def OutPins.reset : OutPins :=
  { rtsn1 := false, rtsn2 := false, rtsn3 := false, wdog := false, errorn := false, dsuact := Config.dsuenPin && Config.dsubrePin, inta := false
    pioDriven := 0, pioLevel := 0 }

/-- The machine right after reset (60 R641, 70 R800). -/
def State.reset : State :=
  { ireg := regFileReset 136 0, freg := regFileReset 32 136, pc := 0, npc := 4, psr := Psr.reset
    wim := 0, tba := 0, tt := 0, y := 0, asr16 := { cb := 0b1111#4, tcb := 0, cnt := 0 }, asr17 := 0, asr18 := 0
    wp := Vector.replicate 4 Watchpoint.reset, fsr := Fsr.reset, annul := false, errorMode := false
    debugMode := Config.dsuenPin && Config.dsubrePin, powerDown := false, mem := [], memFlip := [], icache := Cache.reset
    dcache := Cache.reset, dev := Dev.reset, pci := Pci.reset, dsu := Dsu.reset, trapped := false, freeCtr := 0, clk := 0
    pins := Pins.reset, env := [], busAnswers := [], lines := OutPins.reset
    out := if Config.pciHostMode then [.pciBusReset] else [] }

end Sys2Proof.Machine
end

