-- ==== Sys2Proof/Machine/Sparse.lean ====
section
/-! DEFINITION. Lists of (key, value) pairs in one canonical form: keys strictly rising, no value equal to the default an unlisted
key reads as. Memory, check bits, caches and the trace buffer are kept so. -/

namespace Sys2Proof.Machine

/-- The value at key `a`, `d` where `a` is not listed. -/
def sparseGet {α : Type} (d : α) : List (Nat × α) → Nat → α
  | [], _ => d
  | (k, v) :: rest, a => if k = a then v else sparseGet d rest a

/-- The list without key `a`. -/
def sparseErase {α : Type} : List (Nat × α) → Nat → List (Nat × α)
  | [], _ => []
  | (k, v) :: rest, a => if k = a then sparseErase rest a else (k, v) :: sparseErase rest a

/-- `(a, v)` put before the first larger key. -/
def sparseInsert {α : Type} (a : Nat) (v : α) : List (Nat × α) → List (Nat × α)
  | [] => [(a, v)]
  | (k, w) :: rest => if a < k then (a, v) :: (k, w) :: rest else (k, w) :: sparseInsert a v rest

/-- Key `a` now reads `v`; writing the default removes the entry. -/
def sparseSet {α : Type} [DecidableEq α] (d : α) (l : List (Nat × α)) (a : Nat) (v : α) : List (Nat × α) :=
  if v = d then sparseErase l a else sparseInsert a v (sparseErase l a)

/-- The canonical form, for keys from `lo` on. -/
def sparseWfFrom {α : Type} [DecidableEq α] (d : α) : Nat → List (Nat × α) → Bool
  | _, [] => true
  | lo, (k, v) :: rest => decide (lo ≤ k) && decide (v ≠ d) && sparseWfFrom d (k + 1) rest

/-- The canonical form. -/
def sparseWf {α : Type} [DecidableEq α] (d : α) (l : List (Nat × α)) : Bool := sparseWfFrom d 0 l

end Sys2Proof.Machine
end

