-- ==== Sys2Proof/Machine/Memory.lean ====
section
/-! DEFINITION. External memory as bytes with check bits, the address map, the memory controller's banks and its EDAC
(20_memory R200 to R217, R270 to R278). -/

namespace Sys2Proof.Machine

/-! ### Bit helpers -/

/-- Bit `n` of a word. -/
def bit (w : Word) (n : Nat) : Bool := w.getLsbD n

/-- The bits of `new` where `mask` is 1, of `old` where it is 0. -/
def mergeMask (old new mask : Word) : Word := (old &&& ~~~mask) ||| (new &&& mask)

/-- Bytes of a word: the `n`-byte mask of the bytes at byte offset `o`, big-endian (20_memory R201). -/
def laneMask (n o : Nat) : Word := ((1#32 <<< (8 * n)) - 1) <<< (8 * (4 - n - o))

/-- The `n`-byte value at byte offset `o` of word `w`, right-aligned (20_memory R201). -/
def subword (w : Word) (n o : Nat) : Word :=
  if n = 4 then w else (w >>> (8 * (4 - n - o))) &&& ((1#32 <<< (8 * n)) - 1)

/-- Word `w` with the `n` bytes at byte offset `o` replaced by the low bytes of `v` (20_memory R276). -/
def mergeBytes (w : Word) (n o : Nat) (v : Word) : Word :=
  if n = 4 then v else mergeMask w (v <<< (8 * (4 - n - o))) (laneMask n o)

/-- The word address of the word that holds byte address `a`. -/
def wordBase (a : Word) : Word := a &&& 0xFFFFFFFC#32

/-! ### Free values (log entry 12) -/

/-- The next free value and the state that has used it. -/
def State.free (s : State) : Word × State := (Config.freeWord s.freeCtr, { s with freeCtr := s.freeCtr + 1 })

/-! ### Memory bytes -/

/-- What an unlisted byte of memory reads as (20_memory R204; log entry 10). -/
def emptyByte : Byte := 0

/-- The byte of external memory at `a`, as stored. -/
def State.byteAt (s : State) (a : Nat) : Byte := sparseGet emptyByte s.mem a

/-- The word stored at the four bytes from `a` on, big-endian (20_memory R201). -/
def State.wordAt (s : State) (a : Nat) : Word :=
  wordOfBytes (s.byteAt a) (s.byteAt (a + 1)) (s.byteAt (a + 2)) (s.byteAt (a + 3))

/-- The memory list with one byte written. -/
def memPut (m : List Host.Cell) (a : Nat) (b : Byte) : List Host.Cell := sparseSet emptyByte m a b

/-- The memory list with the word `w` written at the four bytes from `a` on. -/
def memPutWord (m : List Host.Cell) (a : Nat) (w : Word) : List Host.Cell :=
  memPut (memPut (memPut (memPut m a (w.extractLsb' 24 8)) (a + 1) (w.extractLsb' 16 8)) (a + 2) (w.extractLsb' 8 8)) (a + 3)
    (w.extractLsb' 0 8)

/-- Which of the 39 stored bits of the word at byte address `a` differ from a valid code word (20_memory R271). -/
def State.flipAt (s : State) (a : Nat) : BitVec 39 := sparseGet 0#39 s.memFlip (a / 4)

/-- The word at `a` holds data `w` with flipped bits `f`. -/
def State.putWord (s : State) (a : Nat) (w : Word) (f : BitVec 39) : State :=
  { s with mem := memPutWord s.mem a w, memFlip := sparseSet 0#39 s.memFlip (a / 4) f }

/-- Both lists of memory are in the canonical form. -/
def Memory.wf (s : State) : Bool := sparseWf emptyByte s.mem && sparseWf 0#39 s.memFlip

/-! ### EDAC code words (20_memory R260, R271) -/

/-- Data and check bits flipped in `f`. -/
def flipData (f : BitVec 39) : Word := f.extractLsb' 0 32
def flipCheck (f : BitVec 39) : BitVec 7 := f.extractLsb' 32 7

/-- The flips that remain after correction: `some 0` for a clean or single-bit word, `none` for an uncorrectable one. Three or more
flips are what `Config.wideFlip` makes of them (93 I37). -/
def edacFix (f : BitVec 39) : Option (BitVec 39) :=
  let f1 := f &&& (f - 1)
  if f1 = 0 then some 0 else if f1 &&& (f1 - 1) = 0 then none else Config.wideFlip f

/-- Data `d` with flips `f` after a correction that leaves flips `g`. -/
def fixData (d : Word) (f g : BitVec 39) : Word := d ^^^ flipData f ^^^ flipData g

/-- The check bits a word with data `d` and flips `f` holds. -/
def checkBits (enc : Word → BitVec 7) (d : Word) (f : BitVec 39) : BitVec 7 := enc (d ^^^ flipData f) ^^^ flipCheck f

/-! ### Address map (20_memory R211) -/

/-- The areas of the address space. -/
inductive Area where
  | prom
  | io
  | ram
  | regs
  | dsu
  | pciRegs
  | pciIo
  | pciMem
  | unassigned
  deriving DecidableEq, Repr

/-- The area of an address (20_memory R211, R221; 10_state R59). -/
def areaOf (a : Word) : Area :=
  if a < 0x20000000#32 then .prom
  else if a < 0x40000000#32 then .io
  else if a < 0x80000000#32 then .ram
  else if a < 0x80000200#32 then .regs
  else if a < 0x90000000#32 then .unassigned
  else if a < 0xA0000000#32 then .dsu
  else if a < 0xC0000000#32 then .unassigned
  else if a < 0xC8000000#32 then .pciRegs
  else if a < 0xD0000000#32 then .pciIo
  else .pciMem

/-- PROM and RAM are cacheable (20_memory R241). -/
def cacheable (a : Word) : Bool := areaOf a = .prom || areaOf a = .ram

/-- Bus width of a memory (20_memory R216). -/
inductive Width where
  | w8
  | w16
  | w32
  deriving DecidableEq, Repr

/-- "00" 8, "01" 16, "1x" 32 bits (10_state R43, R44). -/
def widthOf (f : BitVec 2) : Width := if f = 0 then .w8 else if f = 1 then .w16 else .w32

/-- A present RAM bank (20_memory R214, R215): its EDAC enable bit, kind, width and place. -/
structure RamBank where
  en : Bool
  sdram : Bool
  bank5 : Bool
  width : Width
  base : Nat
  size : Nat
  deriving DecidableEq, Repr

/-- EDAC is not available on 16-bit memories: the enable is ignored there (20_memory R270, 93 I39). -/
def ramBankOf (en sdram bank5 : Bool) (w : Width) (base size : Nat) : RamBank :=
  { en := en && !(w = .w16), sdram := sdram, bank5 := bank5, width := w, base := base, size := size }

/-- The bank of a RAM address, none where no enabled bank holds it (20_memory R214, R215). -/
def ramBank (d : Dev) (addr : Word) : Option RamBank :=
  let a := addr.toNat
  let srdis := bit d.mcfg2 13
  let sdren := bit d.mcfg2 14
  let size := 8192 * 2 ^ (d.mcfg2.extractLsb' 9 4).toNat
  let sdSize := 0x400000 * 2 ^ (d.mcfg2.extractLsb' 23 3).toNat
  let sdBase := if srdis then 0x40000000 else 0x60000000
  let w := widthOf (d.mcfg2.extractLsb' 4 2)
  if sdren && decide (sdBase ≤ a) && decide (a < sdBase + 2 * sdSize) then
    some (ramBankOf (bit d.mecfg1 19) true false .w32 (if a < sdBase + sdSize then sdBase else sdBase + sdSize) sdSize)
  else if srdis then none
  else if a < 0x60000000 then
    let k := (a - 0x40000000) / size
    if k < 4 then some (ramBankOf (bit d.mecfg1 (31 - k)) false false w (0x40000000 + k * size) size) else none
  else if !sdren && decide (a < 0x70000000) then some (ramBankOf (bit d.mecfg1 27) false true w 0x60000000 0x10000000)
  else none

/-- EDAC write bypass: EWB2, EWB1, EWB0 = "011" (10_state R54). -/
def ewbOn (d : Dev) : Bool := !bit d.mecfg1 22 && bit d.mecfg1 20 && bit d.mecfg1 18

/-- EDAC read bypass (10_state R54). -/
def erbOn (d : Dev) : Bool := bit d.mecfg1 21

/-- BEXCN is low and MCFG1 honours it (20_memory R220). -/
def busException (s : State) : Bool := bit s.dev.mcfg1 25 && !s.pins.bexcn

/-- MECFG1.TCB takes the check bits `c` (20_memory R273). -/
def State.latchTcb (s : State) (c : BitVec 7) : State :=
  { s with dev := { s.dev with mecfg1 := (s.dev.mecfg1 &&& 0xFFFFFF80#32) ||| c.setWidth 32 } }

/-- Whether a read of `a` in bank `b` deposits its check bits in TCB (20_memory R273). -/
def tcbLatches (d : Dev) (b : RamBank) (a : Nat) : Bool :=
  erbOn d && !(b.width = .w16) && (b.bank5 || decide (((a - b.base) * 4) / b.size = (d.mecfg1.extractLsb' 8 2).toNat))

/-- A read of the SRAM or SDRAM word at `a` (20_memory R272, R273, R275); `none` is a detected error that is not corrected. -/
def readRam (s : State) (b : RamBank) (addr : Word) : Option Word × State :=
  let a := addr.toNat
  let d := s.wordAt a
  let f := s.flipAt a
  let s1 := if tcbLatches s.dev b a then s.latchTcb (checkBits Config.enc d f) else s
  if !(b.en && !erbOn s.dev) || f = 0 then (some d, s1)
  else if ewbOn s.dev then (none, s1)
  else match edacFix f with
    | none => (none, s1)
    | some g => (some (fixData d f g), s1.putWord a (fixData d f g) g)

/-- A read of the PROM word at `a` (20_memory R273, R277). A corrected word is not written back. The case ROMEEN = 0 is parameter
PROM_FETCH_CHECK_WHEN_DISABLED (log entry 25). -/
def readProm (s : State) (fetching : Bool) (addr : Word) : Option Word × State :=
  let a := addr.toNat
  let d := s.wordAt a
  let f := s.flipAt a
  let has := !(widthOf (s.dev.mcfg1.extractLsb' 8 2) = .w16)
  let s1 := if has && erbOn s.dev then s.latchTcb (checkBits Config.enc d f) else s
  if has && bit s.dev.mecfg1 26 then
    match edacFix f with
    | none => (none, s1)
    | some g => (some (fixData d f g), s1)
  else if Config.promFetchCheckWhenDisabled && fetching && has && !(f = 0) then (none, s1)
  else (some d, s1)

/-- A word write to SRAM or SDRAM (20_memory R273, R274). -/
def writeRamWord (s : State) (b : RamBank) (addr : Word) (v : Word) : State :=
  let a := addr.toNat
  let f := s.flipAt a
  let kept := flipCheck f ++ (v ^^^ s.wordAt a ^^^ flipData f)
  let pr := s.dev.mecfg3.extractLsb' 0 7
  match b.width with
  | .w32 => if ewbOn s.dev then s.putWord a (v ^^^ s.dev.mecfg2) (pr ++ s.dev.mecfg2) else s.putWord a v 0
  | .w8 => if ewbOn s.dev then s.putWord a v (pr ++ 0#32) else if b.en then s.putWord a v 0 else s.putWord a v kept
  | .w16 => s.putWord a v kept

/-- The address of the word `m` and the check bits a sub-word write leaves (20_memory R276). `none` reports an uncorrectable error
found by the read half. Check bits that the spec does not state are free (93 I38, log entry 32). DESIGN CHOICEs of log entry 32: the word
read of a read-modify-write does not latch MECFG1.TCB while ERB = 1 (R273 names data reads and fetches), and with EDAC on, write bypass
on and ERB = 1 (combination 4) valid check bits are stored. -/
def writeRamSub (s : State) (b : RamBank) (addr : Word) (n : Nat) (v : Word) : Option State :=
  let a := (wordBase addr).toNat
  let o := addr.toNat % 4
  let d := s.wordAt a
  let f := s.flipAt a
  let m := mergeBytes d n o v
  let kept := s.putWord a m (flipCheck f ++ (m ^^^ d ^^^ flipData f))
  let fresh := s.putWord a m 0
  if b.width = .w16 then some kept
  else if ewbOn s.dev then
    if b.width = .w8 then some kept
    else if b.en && !erbOn s.dev then
      if !b.sdram && bit s.dev.mcfg2 6 then (if f = 0 then some fresh else none)
      else some (s.free.2.putWord a m ((s.free.1.extractLsb' 0 7) ++ 0#32))
    else some fresh
  else if b.en then
    if erbOn s.dev then some fresh
    else match edacFix f with
      | none => none
      | some g => some (s.putWord a (mergeBytes (fixData d f g) n o v) 0)
  else if b.width = .w8 then some kept
  else some fresh

/-- A write to SRAM or SDRAM of the `n` bytes of `v` at `addr`. -/
def writeRam (s : State) (b : RamBank) (addr : Word) (n : Nat) (v : Word) : Option State :=
  if n = 4 then some (writeRamWord s b addr v) else writeRamSub s b addr n v

/-- A write to PROM with PRWEN = 1 stores data and leaves the check bits (20_memory R277). -/
def writeProm (s : State) (addr : Word) (n : Nat) (v : Word) : State :=
  let a := (wordBase addr).toNat
  let d := s.wordAt a
  let f := s.flipAt a
  let m := mergeBytes d n (addr.toNat % 4) v
  s.putWord a m (flipCheck f ++ (m ^^^ d ^^^ flipData f))

/-- Write protection by one unit (20_memory R236). -/
def wprProtects (wpr : Word) (addr : Word) : Bool :=
  let hit := (addr.extractLsb' 15 15 ^^^ wpr.extractLsb' 15 15) &&& wpr.extractLsb' 0 15 = 0
  bit wpr 31 && (if bit wpr 30 then hit else !hit)

/-- A write to a RAM address is forbidden by either unit (20_memory R236). -/
def writeProtected (d : Dev) (addr : Word) : Bool := wprProtects d.wpr1 addr || wprProtects d.wpr2 addr

end Sys2Proof.Machine
end

