-- ==== Sys2Proof/Machine/Words.lean ====
section
/-! DEFINITION. The control registers as 32-bit words: PSR, TBR, FSR, the ASRs; the place of a register in the file
(10_state R21 to R40, 43 R520 to R531). -/

namespace Sys2Proof.Machine

/-- One bit as a bit vector. -/
def b1 (b : Bool) : BitVec 1 := BitVec.ofBool b

/-- The index of `r[n]`, n in 1..31, of window `w`: globals 1..7, then W[0..127] (10_state R21). -/
def regIndex (w : BitVec 3) (n : RegNum) : Fin 136 :=
  if n.toNat < 8 then ⟨n.toNat, by omega⟩ else ⟨8 + (w.toNat * 16 + (n.toNat - 8)) % 128, by omega⟩

/-- The index of `f[n]` (10_state R36). -/
def fregIndex (n : RegNum) : Fin 32 := ⟨n.toNat, n.isLt⟩

/-- PSR as RDPSR reads it: impl 0xB, ver 3, EC 0 (10_state R26; the reserved field: 92 D5, log entry 53). -/
def psrWord (p : Psr) : Word :=
  0xB3#8 ++ b1 p.n ++ b1 p.z ++ b1 p.v ++ b1 p.c ++ p.res ++ 0#1 ++ b1 p.ef ++ p.pil ++ b1 p.s ++ b1 p.ps ++ b1 p.et ++ 0#2 ++ p.cwp

/-- PSR with the fields that WRPSR writes taken from `v` (43 R526). The reserved field is written masked to 0 (10_state R26). -/
def psrWritten (p : Psr) (v : Word) : Psr :=
  { n := bit v 23, z := bit v 22, v := bit v 21, c := bit v 20, res := 0, ef := if Config.psrEfWritable then bit v 12 else p.ef
    pil := v.extractLsb' 8 4, s := bit v 7, ps := bit v 6, et := bit v 5, cwp := v.extractLsb' 0 3 }

/-- TBR as RDTBR reads it (10_state R29). -/
def tbrWord (tba : BitVec 20) (tt : BitVec 8) : Word := tba ++ tt ++ 0#4

/-- FSR as STFSR stores it: ver, qne and the unused fields 0 (10_state R37, 44 R568). -/
def fsrWord (f : Fsr) : Word :=
  f.rd ++ 0#2 ++ f.tem ++ b1 f.ns ++ 0#2 ++ 0#3 ++ f.ftt ++ 0#2 ++ f.fcc ++ f.aexc ++ f.cexc

/-- FSR with the fields that LDFSR writes taken from `w` (44 R563). -/
def fsrLoaded (f : Fsr) (w : Word) : Fsr :=
  { rd := w.extractLsb' 30 2, tem := w.extractLsb' 23 5, ns := bit w 22, ftt := f.ftt, fcc := w.extractLsb' 10 2
    aexc := w.extractLsb' 5 5, cexc := w.extractLsb' 0 5 }

/-- ASR16 as a word (10_state R32). -/
def asr16Word (a : Asr16) : Word := a.cb ++ 0#5 ++ a.tcb ++ a.cnt

/-- ASR16 with CB and TCB from `v`; CB = "0100" clears the count (20_memory R261, 43 R528). -/
def asr16Written (a : Asr16) (v : Word) : Asr16 :=
  { cb := v.extractLsb' 28 4, tcb := v.extractLsb' 16 7, cnt := if v.extractLsb' 28 4 = 0b0100#4 then 0 else a.cnt }

/-- The even and the odd word of a watchpoint pair (10_state R35). -/
def wpAddrWord (w : Watchpoint) : Word := w.waddr ++ 0#1 ++ b1 w.ifEn
def wpMaskWord (w : Watchpoint) : Word := w.wmask ++ b1 w.dl ++ b1 w.ds
def wpAddrWritten (w : Watchpoint) (v : Word) : Watchpoint := { w with waddr := v.extractLsb' 2 30, ifEn := bit v 0 }
def wpMaskWritten (w : Watchpoint) (v : Word) : Watchpoint := { w with wmask := v.extractLsb' 2 30, dl := bit v 1, ds := bit v 0 }

/-- The watchpoint of ASR `n`, n in 24..31. -/
def wpIndex (n : RegNum) : Fin 4 := ⟨(n.toNat / 2) % 4, Nat.mod_lt _ (by decide)⟩

/-- ASR `n` exists (10_state R31). -/
def asrImplemented (n : RegNum) : Bool := n = 16 || n = 17 || n = 18 || decide (24 ≤ n.toNat)

/-- What RDASR reads (43 R523, R531). -/
def asrRead (s : State) (n : RegNum) : Word :=
  if n = 16 then asr16Word s.asr16
  else if n = 17 then s.asr17
  else if n = 18 then s.asr18
  else if n.getLsbD 0 then wpMaskWord (s.wp.get (wpIndex n)) else wpAddrWord (s.wp.get (wpIndex n))

/-- What WRASR writes (43 R528, R531). -/
def asrWrite (s : State) (n : RegNum) (v : Word) : State :=
  if n = 16 then { s with asr16 := asr16Written s.asr16 v }
  else if n = 17 then { s with asr17 := v }
  else if n = 18 then { s with asr18 := v }
  else
    let i := wpIndex n
    let w := s.wp.get i
    { s with wp := s.wp.set i.val (if n.getLsbD 0 then wpMaskWritten w v else wpAddrWritten w v) i.isLt }

end Sys2Proof.Machine
end

