-- ==== Sys2Proof/Machine/Irq.lean ====
section
/-! DEFINITION. The interrupt controller and the levels of the port lines (60 R660 to R667, 61 R710, R711). -/

namespace Sys2Proof.Machine

/-- `req[n]`: pending or forced, and enabled (60 R662). -/
def irqRequest (d : Dev) : BitVec 16 := (d.ipend ||| d.iforce) &&& d.ilevelMask.extractLsb' 0 16 &&& 0xFFFE#16

/-- The largest n in 1..k with bit n of `r` set, 0 if none. -/
def highestBit (r : BitVec 16) : Nat → Nat
  | 0 => 0
  | k + 1 => if r.getLsbD (k + 1) then k + 1 else highestBit r k

/-- `bp_IRL`: the selected interrupt; level 1 outranks level 0 (60 R662). -/
def bpIrl (d : Dev) : Nat :=
  let r := irqRequest d
  let high := highestBit (r &&& d.ilevelMask.extractLsb' 16 16) 15
  if high ≠ 0 then high else highestBit r 15

/-- IPEND[n] := 1 (60 R661). -/
def Dev.pend (d : Dev) (n : Nat) : Dev := { d with ipend := d.ipend ||| (1#16 <<< n) }

/-- The interrupt controller's pending bit of the machine. -/
def State.pend (s : State) (n : Nat) : State := { s with dev := s.dev.pend n }

/-- Acknowledge of interrupt `n` (60 R663). -/
def Dev.acknowledge (d : Dev) (n : Nat) : Dev :=
  let m := 1#16 <<< n
  if d.iforce &&& m = 0 then { d with ipend := d.ipend &&& ~~~m } else { d with iforce := d.iforce &&& ~~~m }

/-- The lines D[15:0] are port lines: every memory 8 or 16 bits wide and SDRAM off (61 R711). -/
def highPortUsable (d : Dev) : Bool :=
  !(widthOf (d.mcfg1.extractLsb' 8 2) = .w32) && !(widthOf (d.mcfg1.extractLsb' 27 2) = .w32) &&
    !(widthOf (d.mcfg2.extractLsb' 4 2) = .w32) && !bit d.mcfg2 14

/-- Direction of each of the 32 port lines, 1 = output (61 R710, R711). -/
def portDirections (dir : BitVec 18) : Word :=
  (if dir.getLsbD 17 then 0xFF#8 else 0#8) ++ (if dir.getLsbD 16 then 0xFF#8 else 0#8) ++ dir.extractLsb' 0 16

/-- Input levels of the 32 port lines: D[15:0], PIO[15:0] (61 R710, R711). -/
def portPins (p : Pins) : Word := p.d ++ p.pio

/-- A UART is enabled: TE or RE is 1 (log entry 48). -/
def uartEnabled (x : Uart) : Bool := bit x.ctrl 1 || bit x.ctrl 0

/-- The lines an enabled UART1 or UART2 takes from the port: PIO[15:12], PIO[11:8] (61 R712, 92 D41; log entry 48). -/
def uartLines (d : Dev) : Word :=
  (if uartEnabled d.uart1 then 0xF000#32 else 0) ||| (if uartEnabled d.uart2 then 0x0F00#32 else 0)

/-- The lines the port drives: outputs that no UART has taken. -/
def portDriven (d : Dev) : Word := portDirections d.iodir &&& ~~~uartLines d

/-- Levels of the 32 port lines: driven where the port drives, the pin elsewhere (60 R664). -/
def portLines (s : State) : Word := mergeMask (portPins s.pins) s.dev.iodat (portDriven s.dev)

/-- Group `k` of IOIT requests, with the lines now at `now` and before at `prev` (60 R664). -/
def ioRequests (ioit now prev : Word) (k : Nat) : Bool :=
  let g := ioit.extractLsb' (8 * k) 8
  let line := now.getLsbD (g.extractLsb' 0 5).toNat
  let old := prev.getLsbD (g.extractLsb' 0 5).toNat
  let pol := g.getLsbD 5
  g.getLsbD 7 && (if g.getLsbD 6 then line = pol && old ≠ pol else line = pol)

/-- The I/O interrupts 4 to 7 (60 R664). A group that selects one of D[15:0] sees the same levels while these lines carry memory data (log
entry 7). -/
def pollPort (s : State) : State :=
  let now := portLines s
  let poll (s : State) (k : Nat) : State := if ioRequests s.dev.ioit now s.dev.ioPrev k then s.pend (4 + k) else s
  let s1 := poll (poll (poll (poll s 0) 1) 2) 3
  { s1 with dev := { s1.dev with ioPrev := now } }

/-- CPU_ISTATUS as read: bits 27:24 show the PCI interrupt lines in Host mode (11 R101; log entry 9). -/
def istatusNow (s : State) : Word :=
  if Config.pciHostMode then (s.pci.istatus &&& 0xF0FFFFFF#32) ||| (s.pins.pciInt.setWidth 32 <<< 24) else s.pci.istatus

/-- The sources that are levels: interrupt 1 while NE = 1, 14 while the bridge requests (60 R661, R663, R667). -/
def pollLevels (s : State) : State :=
  let s1 := if bit s.dev.ahbStat 8 then s.pend 1 else s
  if istatusNow s1 &&& s1.pci.imask = 0 then s1 else s1.pend 14

end Sys2Proof.Machine
end

