-- ==== Sys2Proof/Machine/Trace.lean ====
section
/-! DEFINITION. Breakpoints and trace buffer of the DSU as bus transfers and instructions meet them (11 R150 to R155, 61 R766 to
R768). The bit positions the manual does not give are log entry 28. -/

namespace Sys2Proof.Machine

/-- Who masters a bus transfer (00 R9, 20_memory R234). -/
inductive Master where
  | iu
  | pci
  | dsu
  deriving DecidableEq, Repr

/-- HMAST of a master (parameter AHB_MASTER_ID). -/
def hmast : Master → BitVec 4
  | .iu => Config.hmastIu
  | .pci => Config.hmastPci
  | .dsu => Config.hmastDsu

/-- HSIZE of an access of `n` bytes (20_memory R234). -/
def hsize (n : Nat) : BitVec 3 := if n = 1 then 0 else if n = 2 then 1 else 2

/-- Freezing the trace buffer: interrupt 11, and a break if BT = 1 (11 R155). TE keeps its value (log entry 45). -/
def freezeTrace (s : State) : State :=
  if s.dsu.frozen then s
  else
    let s1 := s.pend 11
    { s1 with dsu := { s1.dsu with frozen := true, breakReq := s1.dsu.breakReq || bit s1.dsu.ctrl 2 } }

/-- The delay counter DCNT, 9 bits, in bits 28:20 of the control register (11 R131). -/
def dcnt (s : State) : BitVec 9 := s.dsu.ctrl.extractLsb' 20 9

def State.setDcnt (s : State) (n : BitVec 9) : State :=
  { s with dsu := { s.dsu with ctrl := mergeMask s.dsu.ctrl (n.setWidth 32 <<< 20) 0x1FF00000#32 } }

/-- A DSU breakpoint hit: freeze at once or start the delay, and break if BB = 1 (61 R767). -/
def dsuHit (s : State) : State :=
  let s1 := if dcnt s = 0 then freezeTrace s else { s with dsu := { s.dsu with ctrl := s.dsu.ctrl ||| 0x800#32 } }
  { s1 with dsu := { s1.dsu with breakReq := s1.dsu.breakReq || bit s1.dsu.ctrl 8 } }

/-- `match_i(a)` (61 R766). -/
def bpMatch (badd bma a : Word) : Bool := (a ^^^ badd) &&& bma &&& 0xFFFFFFFC#32 = 0

/-- A breakpoint compares against executed instructions, bus reads or bus writes (61 R766). -/
def bpInstr (s : State) (pc : Word) : Bool :=
  (bit s.dsu.bpAddr1 0 && bpMatch s.dsu.bpAddr1 s.dsu.bpMask1 pc) || (bit s.dsu.bpAddr2 0 && bpMatch s.dsu.bpAddr2 s.dsu.bpMask2 pc)

def bpBus (s : State) (isWrite : Bool) (a : Word) : Bool :=
  let k := if isWrite then 0 else 1
  (bit s.dsu.bpMask1 k && bpMatch s.dsu.bpAddr1 s.dsu.bpMask1 a) || (bit s.dsu.bpMask2 k && bpMatch s.dsu.bpAddr2 s.dsu.bpMask2 a)

/-- Tracing runs (61 R768). -/
def tracing (s : State) : Bool := bit s.dsu.ctrl 0 && !s.dsu.frozen && !s.debugMode

/-- One trace line stored; then the delay counter, for lines of the kind bit 1 of the control register selects (11 R155). With DE = 1
and DCNT = 0 the next such line freezes the buffer (log entry 45). -/
def storeLine (s : State) (isBus : Bool) (idx : BitVec 9) (line : BitVec 128) : State :=
  let s1 := { s with dsu := { s.dsu with trace := sparseSet 0#128 s.dsu.trace idx.toNat line } }
  if bit s1.dsu.ctrl 11 && (bit s1.dsu.ctrl 1 == isBus) then
    if dcnt s1 = 1 || dcnt s1 = 0 then freezeTrace (s1.setDcnt 0) else s1.setDcnt (dcnt s1 - 1)
  else s1

/-- The index after `i`: modulo 512, modulo 256 within its half in mixed mode (61 R768). -/
def nextIndex (mixed top : Bool) (i : BitVec 9) : BitVec 9 := if mixed then b1 top ++ (i.extractLsb' 0 8 + 1) else i + 1

/-- A line of an instruction (11 R153). -/
def traceInstrLine (s : State) (line : BitVec 128) : State :=
  if tracing s && s.dsu.ti then
    let mixed := s.dsu.ta
    let i := if mixed then 0#1 ++ s.dsu.iidx.extractLsb' 0 8 else s.dsu.iidx
    storeLine { s with dsu := { s.dsu with iidx := nextIndex mixed false i } } false i line
  else s

/-- A value of a trace line, free where the spec gives none (log entry 28). -/
def traceField (s : State) (v : Option Word) : Word × State :=
  match v with
  | some x => (x, s)
  | none => s.free

/-- The data of a bus transfer of `n` bytes at `a`: a byte or halfword stands in its lane of the 32-bit big-endian bus (20_memory R201,
R203), and the other lanes are free, as the data of a failed read is (log entry 28). -/
def traceLanes (s : State) (a : Word) (n : Nat) (data : Option Word) : Word × State :=
  match data with
  | some v => if n = 4 then (v, s) else (mergeBytes s.free.1 n (a.toNat % 4) v, s.free.2)
  | none => s.free

/-- A line of a bus transfer (11 R154). HTRANS, HBURST, HMASTLOCK and HRESP, and the data of a failed read, are not given: free (log
entry 28). DESIGN CHOICE: bit 126, which R154 calls unused, is stored as 0 (log entry 28). -/
def traceBusLine (s : State) (m : Master) (isWrite hit : Bool) (a : Word) (n : Nat) (data : Option Word) : State :=
  if tracing s && s.dsu.ta then
    let mixed := s.dsu.ti
    let i := if mixed then 1#1 ++ s.dsu.aidx.extractLsb' 0 8 else s.dsu.aidx
    let (f, s0) := s.free
    let (d, s1) := traceLanes s0 a n data
    let line : BitVec 128 := b1 hit ++ 0#1 ++ s1.dsu.timeTag ++ BitVec.ofNat 4 (bpIrl s1.dev) ++ s1.psr.pil ++ s1.tt ++ b1 isWrite ++
      f.extractLsb' 0 2 ++ hsize n ++ f.extractLsb' 2 3 ++ hmast m ++ f.extractLsb' 5 1 ++ f.extractLsb' 6 2 ++ d ++ a
    storeLine { s1 with dsu := { s1.dsu with aidx := nextIndex mixed true i } } true i line
  else s

/-- What the DSU does about one bus transfer (61 R766 to R768). DESIGN CHOICE: `s` is the state after the transfer has had its own effect,
so a write that sets or clears TE, TI or TA, or that writes a breakpoint register, is judged by what it wrote (11 R154, 61 R768; log entry
28). -/
def dsuSeesBus (s : State) (m : Master) (isWrite : Bool) (a : Word) (n : Nat) (data : Option Word) : State :=
  let hit := bpBus s isWrite a
  let s1 := traceBusLine s m isWrite hit a n data
  if hit then dsuHit s1 else s1

end Sys2Proof.Machine
end

