-- ==== Sys2Proof/Machine/Cache.lean ====
section
/-! DEFINITION. The two caches: tags, data, parity, LRU, injection, flush, diagnostic words (20_memory R240 to R256). How much a miss
fills, and how the valid bits cover a line, are log entry 16. -/

namespace Sys2Proof.Machine

/-- Which cache. -/
inductive CacheId where
  | icache
  | dcache
  deriving DecidableEq, Repr

/-- Number of ways (20_memory R240). -/
def cacheWays : CacheId → Nat
  | .icache => 4
  | .dcache => 2

/-- Number of sets of a way, each of 32 or 16 bytes (20_memory R240). -/
def cacheSets : CacheId → Nat
  | .icache => 256
  | .dcache => 512

/-- The set of an address: A[12:5] or A[12:4] (20_memory R240). -/
def cacheSet (c : CacheId) (a : Word) : Nat :=
  match c with
  | .icache => (a.extractLsb' 5 8).toNat
  | .dcache => (a.extractLsb' 4 9).toNat

/-- The valid bit that covers the word at `a`, as a bit of the tag word: A[3:2] of a data line, A[4:3] of an instruction line. DESIGN
CHOICE: 20_memory R244 says that each valid part of a line has one bit of VALID, bits 11:8, and not which bit is whose; here bit 8 is that
of the part with the lowest address and bit 11 that of the highest (log entry 16). -/
def validBit (c : CacheId) (a : Word) : Nat :=
  match c with
  | .icache => 8 + (a.extractLsb' 3 2).toNat
  | .dcache => 8 + (a.extractLsb' 2 2).toNat

/-- A cache word with good parity. -/
def CacheWord.clean (v : Word) : CacheWord := { val := v, dflip := 0, pflip := 0 }

def State.getCache (s : State) : CacheId → Cache
  | .icache => s.icache
  | .dcache => s.dcache

def State.setCache (s : State) (c : CacheId) (x : Cache) : State :=
  match c with
  | .icache => { s with icache := x }
  | .dcache => { s with dcache := x }

/-- Number of ones among the low `n` bits of `v`. -/
def onesBelow (v : Nat) : Nat → Nat
  | 0 => 0
  | n + 1 => onesBelow v n + (v >>> n) % 2

/-- Parity notices the flips of a word: any odd number (20_memory R254), an even number as the grouping has it (log entry 18). -/
def parityBad (w : CacheWord) : Bool :=
  if w.dflip = 0 && w.pflip = 0 then false
  else if (onesBelow w.dflip.toNat 32 + onesBelow w.pflip.toNat 4) % 2 = 1 then true
  else Config.parityNoticesEven w.dflip w.pflip

/-- Keys of a tag and of a data word. -/
def tagKey (c : CacheId) (way set : Nat) : Nat := way * cacheSets c + set
def dataKey (way : Nat) (a : Word) : Nat := way * 2048 + (a.extractLsb' 2 11).toNat

def Cache.tag (x : Cache) (k : Nat) : CacheWord := sparseGet (CacheWord.clean 0) x.tags k
def Cache.word (x : Cache) (k : Nat) : CacheWord := sparseGet (CacheWord.clean 0) x.data k
def Cache.putTag (x : Cache) (k : Nat) (w : CacheWord) : Cache := { x with tags := sparseSet (CacheWord.clean 0) x.tags k w }
def Cache.putWord (x : Cache) (k : Nat) (w : CacheWord) : Cache := { x with data := sparseSet (CacheWord.clean 0) x.data k w }

/-- The ways of a set, least recently used first (20_memory R243). -/
def Cache.order (x : Cache) (set : Nat) : List Nat := sparseGet [0, 1, 2, 3] x.lru set

/-- Way `w` of `set` was used last (20_memory R240). -/
def Cache.touch (x : Cache) (set w : Nat) : Cache :=
  { x with lru := sparseSet [0, 1, 2, 3] x.lru set ((x.order set).filter (fun v => v ≠ w) ++ [w]) }

/-- The way to replace: the least recently used (20_memory R246). -/
def Cache.victim (c : CacheId) (x : Cache) (set : Nat) : Nat :=
  match (x.order set).filter (fun v => v < cacheWays c) with
  | w :: _ => w
  | [] => 0

/-- The first way below `n` whose tag matches `a` (20_memory R240). -/
def findWay (c : CacheId) (x : Cache) (a : Word) : Nat → Option Nat
  | 0 => none
  | n + 1 =>
    match findWay c x a n with
    | some w => some w
    | none =>
      if (x.tag (tagKey c n (cacheSet c a))).val.extractLsb' 12 19 = a.extractLsb' 13 19 then some n else none

/-- Way `w` holds the word at `a`: its tag matches and the valid bit of the word is set (20_memory R246). -/
def holdsWord (c : CacheId) (x : Cache) (a : Word) (w : Nat) : Bool :=
  let t := (x.tag (tagKey c w (cacheSet c a))).val
  t.extractLsb' 12 19 = a.extractLsb' 13 19 && bit t (validBit c a)

/-- The first way below `n` that holds the word at `a`. -/
def hitWayBelow (c : CacheId) (x : Cache) (a : Word) : Nat → Option Nat
  | 0 => none
  | n + 1 =>
    match hitWayBelow c x a n with
    | some w => some w
    | none => if holdsWord c x a n then some n else none

/-- The way that holds the word at `a` (20_memory R246). -/
def hitWay (c : CacheId) (x : Cache) (a : Word) : Option Nat := hitWayBelow c x a (cacheWays c)

/-- State of a cache by CCR: "11" enabled, "01" frozen, "x0" disabled (20_memory R242). A model without caches (parameter
MODEL_CACHES) goes to memory always (20_memory R257). -/
def cacheField (d : Dev) : CacheId → BitVec 2
  | .icache => d.ccr.extractLsb' 0 2
  | .dcache => d.ccr.extractLsb' 2 2
def cacheOn (d : Dev) (c : CacheId) : Bool := Config.modelCaches && (cacheField d c).getLsbD 0
def cacheEnabled (d : Dev) (c : CacheId) : Bool := Config.modelCaches && cacheField d c = 3

/-- A word as stored by a fill while injection is aimed at its array (20_memory R255): `sel` is the code of CPSEL. -/
def injectCache (d : Dev) (sel : BitVec 2) (mask v : Word) : CacheWord :=
  if d.ccr1.extractLsb' 11 3 = 0b011#3 && d.ccr1.extractLsb' 8 2 = sel then
    { val := v ^^^ mask, dflip := mask, pflip := d.ccr1.extractLsb' 0 4 }
  else CacheWord.clean v
def injectData (d : Dev) (c : CacheId) (v : Word) : CacheWord :=
  injectCache d (match c with | .icache => 0 | .dcache => 2) d.ccr2 v
def injectTag (d : Dev) (c : CacheId) (v : Word) : CacheWord :=
  injectCache d (match c with | .icache => 1 | .dcache => 3) (d.ccr2 &&& 0xFFFFFF00#32) v

/-- Count one parity error in CCR3 (20_memory R256): place and width of the counter; a counter at its maximum stays there and reads
an open value (93 I14, log entry 37). -/
def countParity (s : State) (lo width : Nat) : State :=
  let m : Word := (1#32 <<< width) - 1
  let n := (s.dev.ccr3 >>> lo) &&& m
  if n = m then s else { s with dev := { s.dev with ccr3 := s.dev.ccr3 + (1#32 <<< lo) } }
def countTagError (s : State) : CacheId → State
  | .icache => countParity s 10 6
  | .dcache => countParity s 26 6
def countDataError (s : State) : CacheId → State
  | .icache => countParity s 0 10
  | .dcache => countParity s 16 10

/-- Reset, by CNTRST, of all four counters (20_memory R256). -/
def clearParityCounters (s : State) : State := { s with dev := { s.dev with ccr3 := 0 } }

/-- What a lookup finds (20_memory R246, R254). -/
inductive Lookup where
  | hit (v : Word) (s : State)
  /-- Tag or data parity is wrong: read memory and write the right word into this way. -/
  | refill (way : Nat) (s : State)
  | miss
  deriving DecidableEq, Repr

/-- Look the word at `a` up in a cache that is on. -/
def cacheLookup (s : State) (c : CacheId) (a : Word) : Lookup :=
  let x := s.getCache c
  match hitWay c x a with
  | none => .miss
  | some w =>
    if parityBad (x.tag (tagKey c w (cacheSet c a))) then .refill w (countTagError s c)
    else
      let d := x.word (dataKey w a)
      if parityBad d then .refill w (countDataError s c) else .hit d.val (s.setCache c (x.touch (cacheSet c a) w))

/-- Write words into way `w`, the line of `a`: its tag keeps the lock and valid bits it has if it already holds this tag and its parity
is good (20_memory R254; log entry 16). -/
def fillWay (s : State) (c : CacheId) (w : Nat) (a : Word) (words : List (Word × Word)) : State :=
  let x := s.getCache c
  let k := tagKey c w (cacheSet c a)
  let old := x.tag k
  let kept := if old.val.extractLsb' 12 19 = a.extractLsb' 13 19 && !parityBad old then old.val &&& 0x80000F00#32 else 0
  let t : Word := kept ||| ((a.extractLsb' 13 19).setWidth 32 <<< 12) ||| (1#32 <<< validBit c a)
  let x1 := words.foldl (fun y p => y.putWord (dataKey w p.1) (injectData s.dev c p.2)) x
  s.setCache c ((x1.putTag k (injectTag s.dev c t)).touch (cacheSet c a) w)

/-- After a parity error in way `w`: the correct word alone is written (20_memory R254). A tag with wrong parity is rewritten with no
valid bit, since its valid bit would cover the other word of the pair too (log entry 16). -/
def mendWay (s : State) (c : CacheId) (w : Nat) (a v : Word) : State :=
  let x := (s.getCache c).putWord (dataKey w a) (injectData s.dev c v)
  let k := tagKey c w (cacheSet c a)
  let y := if parityBad (x.tag k) then x.putTag k (injectTag s.dev c ((a.extractLsb' 13 19).setWidth 32 <<< 12)) else x
  s.setCache c (y.touch (cacheSet c a) w)

/-- Allocate after a miss: the way that holds the tag, else the least recently used (20_memory R246). -/
def allocate (s : State) (c : CacheId) (a : Word) (words : List (Word × Word)) : State :=
  let x := s.getCache c
  match findWay c x a (cacheWays c) with
  | some w => fillWay s c w a words
  | none => fillWay s c (x.victim c (cacheSet c a)) a words

/-- A cached copy of the word at `a`, if any, takes the `n` bytes of `v` at offset `o` (20_memory R247, R248). DESIGN
CHOICE: a byte or halfword leaves wrong parity bits, and wrong data bits of the other bytes, as they are (R254; log entry 18), and the
way counts as used for replacement (log entry 16). -/
def updateCached (s : State) (c : CacheId) (a : Word) (n o : Nat) (v : Word) : State :=
  let x := s.getCache c
  match hitWay c x a with
  | none => s
  | some w =>
    let k := dataKey w a
    let old := x.word k
    let new : CacheWord :=
      if n = 4 then injectData s.dev c v
      else { val := mergeBytes old.val n o v, dflip := old.dflip &&& ~~~laneMask n o, pflip := old.pflip }
    s.setCache c ((x.putWord k new).touch (cacheSet c a) w)

/-- A write by another master invalidates the line of the data cache while CCR.DS = 1 (20_memory R252). DESIGN CHOICE (log entry 16): not
while that cache is disabled (R242); and the tag word, its valid bits now 0 and its other bits as they were, is left with good parity even
where its parity was wrong before, since R252 says nothing of the parity. -/
def snoop (s : State) (a : Word) : State :=
  if bit s.dev.ccr 23 && cacheOn s.dev .dcache && cacheable a then
    match hitWay .dcache s.dcache a with
    | none => s
    | some w =>
      let k := tagKey .dcache w (cacheSet .dcache a)
      { s with dcache := s.dcache.putTag k (CacheWord.clean ((s.dcache.tag k).val &&& 0xFFFFF0FF#32)) }
  else s

/-- Flush: every tag word of the cache reads 0 (20_memory R244, R249). DESIGN CHOICE: data words and the LRU order stay (log entry 16). -/
def flushCache (s : State) (c : CacheId) : State := s.setCache c { s.getCache c with tags := [] }

/-- Freeze on interrupt, by CCR.IF and CCR.DF (20_memory R251). -/
def freezeCaches (s : State) : State :=
  let c := s.dev.ccr
  let c1 := if Config.modelCaches && bit c 4 && c.extractLsb' 0 2 = 3 then c &&& 0xFFFFFFFD#32 else c
  let c2 := if Config.modelCaches && bit c 5 && c.extractLsb' 2 2 = 3 then c1 &&& 0xFFFFFFF7#32 else c1
  { s with dev := { s.dev with ccr := c2 } }

/-- The key of a diagnostic offset: tag of the line, or data word, of way offset / 0x2000 (20_memory R245, 11 R135). -/
def diagOffset (c : CacheId) (a : Word) : Word :=
  match c with
  | .icache => a &&& 0x7FFF#32
  | .dcache => a &&& 0x3FFF#32
def diagTagKey (c : CacheId) (a : Word) : Nat :=
  tagKey c ((diagOffset c a).extractLsb' 13 2).toNat (cacheSet c (diagOffset c a))
def diagDataKey (c : CacheId) (a : Word) : Nat := dataKey ((diagOffset c a).extractLsb' 13 2).toNat (diagOffset c a)

/-- `CacheDiagRead` (20_memory R245); without caches a tag reads 0 and data is open (20_memory R257). -/
def diagRead (s : State) (c : CacheId) (isTag : Bool) (a : Word) : Word × State :=
  if Config.modelCaches then
    (if isTag then ((s.getCache c).tag (diagTagKey c a)).val else ((s.getCache c).word (diagDataKey c a)).val, s)
  else if isTag then (0, s)
  else s.free

/-- `CacheDiagWrite` (20_memory R245); it stores good parity and, in a tag, bits 7:0 too, and leaves the LRU order as it is (DESIGN
CHOICE, log entry 50). Without caches it is dropped (20_memory R257). -/
def diagWrite (s : State) (c : CacheId) (isTag : Bool) (a v : Word) : State :=
  let x := s.getCache c
  if Config.modelCaches then
    s.setCache c (if isTag then x.putTag (diagTagKey c a) (CacheWord.clean v) else x.putWord (diagDataKey c a) (CacheWord.clean v))
  else s

end Sys2Proof.Machine
end

