-- ==== Sys2Proof/Machine/Uart.lean ====
section
/-! DEFINITION. The UARTs (61 R720 to R735). -/

namespace Sys2Proof.Machine

def Dev.uart (d : Dev) : UartId → Uart
  | .u1 => d.uart1
  | .u2 => d.uart2
  | .u3 => d.uart3

def State.setUart (s : State) (u : UartId) (x : Uart) : State :=
  match u with
  | .u1 => { s with dev := { s.dev with uart1 := x } }
  | .u2 => { s with dev := { s.dev with uart2 := x } }
  | .u3 => { s with dev := { s.dev with uart3 := x } }

/-- The interrupt of a UART (60 R666). -/
def uartIrq : UartId → Nat
  | .u1 => 3
  | .u2 => 2
  | .u3 => 12

/-- The level of CTSN that the transmitter sees: its own RTSN in loop-back (61 R727, R728). -/
def ctsn (s : State) (u : UartId) : Bool :=
  let x := s.dev.uart u
  if bit x.ctrl 7 then x.rtsn
  else match u with
    | .u1 => s.pins.cts1
    | .u2 => s.pins.cts2
    | .u3 => s.pins.cts3

/-- The level at the RTSN pin: inactive in loop-back (61 R728). -/
def rtsnPin (x : Uart) : Bool := bit x.ctrl 7 || x.rtsn

/-- Length of a frame in ticks: 10 or 11 bits of 8 ticks (61 R723, R724), by PE when it starts (log entry 6). -/
def frameTicks (ctrl : Word) : Nat := if bit ctrl 5 then 88 else 80

/-- The holding register moves to an idle shift register while TE = 1 (61 R723): evaluated whenever one of its conditions may have
become true, by a write, the end of a frame, or CTSN falling. -/
def uartStart (s : State) (u : UartId) : State :=
  let x := s.dev.uart u
  if bit x.ctrl 1 && x.thrFull && !x.tsrBusy && (!bit x.ctrl 6 || !ctsn s u) then
    let s1 := s.setUart u { x with tsr := x.thr, tsrBusy := true, thrFull := false, left := frameTicks x.ctrl }
    if bit x.ctrl 3 then s1.pend (uartIrq u) else s1
  else s

/-- The receiver takes a complete frame (61 R725, R727). A parity error needs PE = 1 in the control register (61 R726). -/
def uartReceive (s : State) (u : UartId) (b : Byte) (wrongParity framing brk : Bool) : State :=
  let x := s.dev.uart u
  let parity := wrongParity && bit x.ctrl 5
  if bit x.ctrl 0 then
    let ri := bit x.ctrl 2
    let x0 := if bit x.ctrl 6 && x.dr then { x with rtsn := true } else x
    let overrun := x0.dr && x0.rsrFull
    let x1 := if !x0.dr then { x0 with rhr := b, dr := true } else { x0 with rsr := b, rsrFull := true }
    let flags : Word := (b1 framing ++ b1 parity ++ b1 overrun ++ b1 brk).setWidth 32 <<< 3
    let s1 := s.setUart u { x1 with stat := x1.stat ||| flags }
    if ri && (!x0.dr || overrun || parity || framing) then s1.pend (uartIrq u) else s1
  else s

/-- The frame being sent has ended (61 R723, R728). -/
def uartFinish (s : State) (u : UartId) : State :=
  let x := s.dev.uart u
  let s1 := s.setUart u { x with tsrBusy := false, left := 0 }
  let s2 := if bit x.ctrl 7 then uartReceive s1 u x.tsr false false false else { s1 with out := .uartTx u x.tsr :: s1.out }
  uartStart s2 u

/-- One tick of the baud-rate divider; a frame moves on only while TE = 1 (61 R723, R730). -/
def uartTick (s : State) (u : UartId) : State :=
  let x := s.dev.uart u
  let s1 := if x.tsrBusy && bit x.ctrl 1 then
      (if x.left ≤ 1 then uartFinish s u else s.setUart u { x with left := x.left - 1 })
    else s
  uartStart s1 u

/-- One clock of the divider; with EC = 1 the divider is clocked by PIO[3], not by the system clock (61 R730). -/
def uartScale (s : State) (u : UartId) : State :=
  let x := s.dev.uart u
  if x.scaler = 0 then uartTick (s.setUart u { x with scaler := x.scalerRld.extractLsb' 0 12 }) u
  else s.setUart u { x with scaler := x.scaler - 1 }
def uartClock (s : State) (u : UartId) : State := if bit (s.dev.uart u).ctrl 8 then s else uartScale s u
def uartExternalClock (s : State) (u : UartId) : State := if bit (s.dev.uart u).ctrl 8 then uartScale s u else s

/-- Status register (61 R729). -/
def uartStatus (x : Uart) : Word :=
  (x.stat &&& 0xFFFFFFF8#32) ||| (b1 (!x.thrFull) ++ b1 (!x.tsrBusy) ++ b1 x.dr).setWidth 32

/-- What a read of the data register does to the receiver: a byte waiting in the shift register moves up, RTSN is active again (61
R722). -/
def uartTakeByte (s : State) (u : UartId) : State :=
  let x := s.dev.uart u
  if x.rsrFull then
    let s1 := s.setUart u { x with rhr := x.rsr, rsrFull := false, dr := true, rtsn := false }
    if bit x.ctrl 0 && bit x.ctrl 2 then s1.pend (uartIrq u) else s1
  else s.setUart u { x with dr := false, rtsn := false }

/-- Read of the data register, with its side effects (61 R722); in loop-back the transmitter sees its own RTSN fall (61 R723, R728). -/
def uartReadData (s : State) (u : UartId) : Word × State := ((s.dev.uart u).rhr.setWidth 32, uartStart (uartTakeByte s u) u)

/-- Register `k` of a UART: data, status, control, scaler reload (10_state R70 to R73). -/
def uartRead (s : State) (u : UartId) (k : Nat) : Word × State :=
  match k with
  | 0 => uartReadData s u
  | 1 => (uartStatus (s.dev.uart u), s)
  | 2 => ((s.dev.uart u).ctrl, s)
  | _ => ((s.dev.uart u).scalerRld, s)

/-- Writes: THR, the error flags, control, scaler reload (61 R721, R726). With FL = 0 RTSN is active (61 R727). Reserved bits of
the scaler reload read back what was written (log entry 41). -/
def uartWrite (s : State) (u : UartId) (k : Nat) (v : Word) : State :=
  let x := s.dev.uart u
  match k with
  | 0 => uartStart (s.setUart u { x with thr := v.extractLsb' 0 8, thrFull := true }) u
  | 1 => s.setUart u { x with stat := v &&& 0xFFFFFFF8#32 }
  | 2 => uartStart (s.setUart u { x with ctrl := v, rtsn := x.rtsn && bit v 6 }) u
  | _ => s.setUart u { x with scalerRld := v }

end Sys2Proof.Machine
end

