-- ==== Sys2Proof/Machine/Regs.lean ====
section
/-! DEFINITION. The on-chip registers at 0x80000000: what a word read returns and what a word write does (10_state R42 to R84,
20_memory R222, R234, R249, R256, 60 R663, R683, R684, R700, 61 R710, R711). -/

namespace Sys2Proof.Machine

/-- A value the spec leaves open (10_state R52, R59, R81; 93 I64). -/
def openRead (s : State) : Word × State := s.free

/-- Latch of a bus error while NE = 0 (20_memory R234). -/
def latchBusError (s : State) (m : Master) (isRead : Bool) (a : Word) (n : Nat) : State :=
  if bit s.dev.ahbStat 8 then s
  else
    let st : Word := (s.dev.ahbStat &&& 0xFFFFFE00#32) ||| (1#1 ++ b1 isRead ++ 0#4 ++ hsize n).setWidth 32
    { s with dev := { s.dev with ahbFail := a, ahbStat := st, ahbMaster := hmast m } }

/-- CCR as read: constants in 31:24; FD, FI, IP, DP read 0 (20_memory R249, R253; log entry 16). -/
def ccrRead (d : Dev) : Word := (Config.ccrConstants ++ 0#24) ||| (d.ccr &&& 0x009F3FFF#32)

/-- A write of CCR: the r/w fields, and the flush commands FI and FD (20_memory R249). -/
def ccrWrite (s : State) (v : Word) : State :=
  let s1 := { s with dev := { s.dev with ccr := v &&& 0x009F3FFF#32 } }
  let s2 := if bit v 21 then flushCache s1 .icache else s1
  if bit v 22 then flushCache s2 .dcache else s2

/-- CCR1 as read; CNTRST reads an open value once it was written 1 (93 I14). -/
def ccr1Read (s : State) : Word × State :=
  if bit s.dev.ccr1 10 then (mergeMask s.dev.ccr1 s.free.1 0x400#32, s.free.2) else (s.dev.ccr1, s)

/-- A write of CCR1; CNTRST = 1 clears the counters (20_memory R256). -/
def ccr1Write (s : State) (v : Word) : State :=
  let s1 := { s with dev := { s.dev with ccr1 := 0x20000000#32 ||| (v &&& 0x00003F0F#32) } }
  if bit v 10 then clearParityCounters s1 else s1

/-- CCR3 as read: a counter at its maximum reads an open value (93 I14). -/
def ccr3Read (s : State) : Word × State :=
  let c := s.dev.ccr3
  let full (m : Word) : Word := if c &&& m = m then m else 0
  let m := full 0xFC000000#32 ||| full 0x03FF0000#32 ||| full 0x0000FC00#32 ||| full 0x000003FF#32
  if m = 0 then (c, s) else (mergeMask c s.free.1 m, s.free.2)

/-- CPSEL aims error injection at a tag area (20_memory R255). -/
def injectsTag (d : Dev) : Bool := bit d.ccr1 8

/-- CCR2 as read, and a write of it: in the view of a tag area bits 7:0 are read-only 0 (10_state R50). -/
def ccr2Read (d : Dev) : Word := if injectsTag d then d.ccr2 &&& 0xFFFFFF00#32 else d.ccr2
def ccr2Write (s : State) (v : Word) : State :=
  { s with dev := { s.dev with ccr2 := if injectsTag s.dev then mergeMask s.dev.ccr2 v 0xFFFFFF00#32 else v } }

/-- A timer's control register: LD copies the reload value and reads 0 (60 R683). -/
def timerCtrlWrite (t : Timer) (v : Word) : Timer :=
  { t with ctrl := v &&& 0xFFFFFFFB#32, val := if bit v 2 then mergeMask t.val t.rld 0x00FFFFFF#32 else t.val }

/-- The port data register as read: driven value of outputs, pin of inputs; the high half is open while the lines carry memory data
(61 R710, R711). -/
def iodatRead (s : State) : Word × State :=
  let w := portLines s
  if highPortUsable s.dev then (w, s) else (mergeMask w s.free.1 0xFFFF0000#32, s.free.2)

/-- A write of the port data register sets the latch of output lines (61 R710; 93 I56). DESIGN CHOICE: of D[15:0] too while these lines carry
memory data, and the latch is driven once they are port lines again (R711; log entry 7). -/
def iodatWrite (s : State) (v : Word) : State :=
  { s with dev := { s.dev with iodat := mergeMask s.dev.iodat v (portDirections s.dev.iodir) } }

/-- A change of direction: a line that becomes an input latches its pin; the latch of a line that becomes an output is open
(61 R710; 93 I56). DESIGN CHOICE: of D[15:0] too while these lines carry memory data (R711; log entry 7). -/
def iodirWrite (s : State) (v : Word) : State :=
  let dir := v.extractLsb' 0 18
  let old := portDirections s.dev.iodir
  let new := portDirections dir
  let rising := new &&& ~~~old
  let dat := mergeMask s.dev.iodat (portPins s.pins) (old &&& ~~~new)
  if rising = 0 then { s with dev := { s.dev with iodir := dir, iodat := dat } }
  else { s.free.2 with dev := { s.dev with iodir := dir, iodat := mergeMask dat s.free.1 rising } }

/-- The UART and register of an offset, if any (10_state R42). -/
def uartOffset (off : Nat) : Option (UartId × Nat) :=
  if 0x70 ≤ off && off < 0x80 then some (.u1, (off - 0x70) / 4)
  else if 0x80 ≤ off && off < 0x90 then some (.u2, (off - 0x80) / 4)
  else if 0xE0 ≤ off && off < 0xF0 then some (.u3, (off - 0xE0) / 4)
  else none

/-- Offsets of the DSU UART control and status registers (10_state R82, parameter DSU_UART_CTRL_AT_C4). -/
def dsuUartCtrlOff : Nat := if Config.dsuUartCtrlAtC4 then 0xC4 else 0xC8
def dsuUartStatOff : Nat := if Config.dsuUartCtrlAtC4 then 0xC8 else 0xC4

/-- A write of 0x05 to PCI_RESET resets the PCI bus and ends a running DMA (61 R752). DESIGN CHOICE: in Guest mode too, where R757 makes
pci_rst an input (log entry 42). -/
def pciBusReset (s : State) : State :=
  let p := s.pci
  let stop (d : Dma) : Dma := { d with running := false, left := 0 }
  { s with
    pci := { p with ready := if Config.pciHostMode then false else p.ready, wdma := stop p.wdma, rdma := stop p.rdma }
    out := .pciBusReset :: s.out }

/-- Word read of the register at 0x80000000 + `off` (10_state R42). Reserved bits without an access code are log entry 41. -/
def readReg (s : State) (off : Nat) : Word × State :=
  let d := s.dev
  match uartOffset off with
  | some (u, k) => uartRead s u k
  | none =>
    if off = dsuUartCtrlOff then (d.dsuUartCtrl, s)
    else if off = dsuUartStatOff then (d.dsuUartStat, s)
    else match off with
    | 0x00 => (d.mcfg1, s)
    | 0x04 => (d.mcfg2, s)
    | 0x08 => (d.mcfg3, s)
    | 0x0C => (if bit d.ahbStat 8 then d.ahbFail else 0x8000000C#32, s)
    | 0x10 => (if bit d.ahbStat 8 then d.ahbStat ||| (d.ahbMaster.setWidth 32 <<< 3) else 0x00000082#32, s)
    | 0x14 => (ccrRead d, s)
    | 0x1C => (d.wpr1, s)
    | 0x20 => (d.wpr2, s)
    | 0x24 => (0x7277BBDD#32, s)
    | 0x40 => (d.tim1.val, s)
    | 0x44 => (d.tim1.rld, s)
    | 0x48 => (d.tim1.ctrl, s)
    | 0x4C => (d.wdog, s)
    | 0x50 => (d.tim2.val, s)
    | 0x54 => (d.tim2.rld, s)
    | 0x58 => (d.tim2.ctrl, s)
    | 0x60 => (d.psc, s)
    | 0x64 => (d.pscRld, s)
    | 0x90 => (d.ilevelMask, s)
    | 0x94 => (d.ipend.setWidth 32, s)
    | 0x98 => (d.iforce.setWidth 32, s)
    | 0x9C => (0, s)
    | 0xA0 => iodatRead s
    | 0xA4 => (d.iodir.setWidth 32, s)
    | 0xA8 => (d.ioit, s)
    | 0xCC => (d.dsuUartScaler, s)
    | 0x100 => (d.mecfg1, s)
    | 0x104 => (d.mecfg2, s)
    | 0x108 => (d.mecfg3, s)
    | 0x10C => (3, s)
    | 0x110 => ccr1Read s
    | 0x114 => (ccr2Read d, s)
    | 0x118 => ccr3Read s
    | _ => openRead s

/-- The new on-chip registers after a plain word write at `off`, with the fields that are not writable kept or 0 (10_state R43 to
R84). Registers whose write does more are in `writeReg`. What reserved bits without an access code hold is log entry 41. -/
def writeDev (d : Dev) (off : Nat) (v : Word) : Dev :=
  match off with
  | 0x00 => { d with mcfg1 := v &&& 0x1EF9FB1F#32 }
  | 0x04 => { d with mcfg2 := v &&& 0xFFE7FEFF#32 }
  | 0x08 => { d with mcfg3 := v &&& 0x07FFF000#32 }
  | 0x10 => { d with ahbStat := mergeMask d.ahbStat v 0xFFFFFF00#32 }
  | 0x1C => { d with wpr1 := v }
  | 0x20 => { d with wpr2 := v }
  | 0x40 => { d with tim1 := { d.tim1 with val := v } }
  | 0x44 => { d with tim1 := { d.tim1 with rld := v } }
  | 0x48 => { d with tim1 := timerCtrlWrite d.tim1 v }
  | 0x4C => { d with wdog := v, wdogAsserted := false }
  | 0x50 => { d with tim2 := { d.tim2 with val := v } }
  | 0x54 => { d with tim2 := { d.tim2 with rld := v } }
  | 0x58 => { d with tim2 := timerCtrlWrite d.tim2 v }
  | 0x60 => { d with psc := v }
  | 0x64 => { d with pscRld := v }
  | 0x90 => { d with ilevelMask := v }
  | 0x98 => { d with iforce := v.extractLsb' 0 16 &&& 0xFFFE#16 }
  | 0x9C => { d with ipend := d.ipend &&& ~~~(v.extractLsb' 0 16 &&& 0xFFFE#16) }
  | 0xA8 => { d with ioit := v }
  | 0xCC => { d with dsuUartScaler := v &&& 0x0003FFFF#32 }
  | 0x100 => { d with mecfg1 := v &&& 0xFC7FC37F#32 }
  | 0x104 => { d with mecfg2 := v }
  | 0x108 => { d with mecfg3 := v &&& 0x7F#32 }
  | _ => d

/-- Word write of the register at 0x80000000 + `off` (10_state R42). The reserved bits of the DSU UART control register read 0 (log
entry 41); a value other than 0x05 written to PCI_RESET does nothing (log entry 42). -/
def writeReg (s : State) (off : Nat) (v : Word) : State :=
  match uartOffset off with
  | some (u, k) => uartWrite s u k v
  | none =>
    if off = dsuUartCtrlOff then
      { s with dev := { s.dev with dsuUartCtrl := (s.dev.dsuUartCtrl &&& v &&& 2#32) ||| (v &&& 1#32) } }
    else if off = dsuUartStatOff then
      { s with dev := { s.dev with dsuUartStat := mergeMask s.dev.dsuUartStat v 0xFFFFFFA8#32 } }
    else match off with
    | 0x14 => ccrWrite s v
    | 0x18 => { s with powerDown := true }
    | 0xA0 => iodatWrite s v
    | 0xA4 => iodirWrite s v
    | 0xD0 => if v.extractLsb' 0 8 = 0x05#8 then pciBusReset s else s
    | 0x110 => ccr1Write s v
    | 0x114 => ccr2Write s v
    | _ => { s with dev := writeDev s.dev off v }

end Sys2Proof.Machine
end

