-- ==== Sys2Proof/Machine/Bridge.lean ====
section
/-! DEFINITION. The registers of the PCI bridge at 0xC0000000 and its AHB-PCI windows (11 R90 to R124, 61 R740 to R757). -/

namespace Sys2Proof.Machine

/-- PCI bus commands a channel lists (11 R96). -/
def dmaCommandOk (ch : DmaChannel) (cmd : BitVec 4) : Bool :=
  match ch with
  | .read => cmd = 0 || cmd = 2 || cmd = 6 || cmd = 10 || cmd = 12
  | .write => cmd = 1 || cmd = 3 || cmd = 7 || cmd = 11

def Pci.dma (p : Pci) : DmaChannel → Dma
  | .write => p.wdma
  | .read => p.rdma

def Pci.setDma (p : Pci) (ch : DmaChannel) (d : Dma) : Pci :=
  match ch with
  | .write => { p with wdma := d }
  | .read => { p with rdma := d }

/-- The first CPU_ISTATUS bit of a channel: its END bit; ABORT, PARITY and AHB ERROR follow (11 R100). -/
def dmaBit : DmaChannel → Nat
  | .write => 0
  | .read => 8

/-- CPU_ISTATUS bit `n` := 1 (11 R101). -/
def Pci.report (p : Pci) (n : Nat) : Pci := { p with istatus := p.istatus ||| (1#32 <<< n) }

/-- A running DMA stops; status bit END + `k` is set (61 R748). -/
def dmaStop (p : Pci) (ch : DmaChannel) (k : Nat) : Pci :=
  (p.setDma ch { p.dma ch with running := false, left := 0 }).report (dmaBit ch + k)

/-- A DMA has moved all its bytes; with PCI INTERRUPT = 1 at its start the PCI-side status bit is set too (61 R748, R755). -/
def dmaEnd (p : Pci) (ch : DmaChannel) : Pci :=
  let p1 := dmaStop p ch 0
  if (p.dma ch).pciIrq && !Config.pciHostMode then { p1 with gIstatus := p1.gIstatus ||| (1#32 <<< dmaBit ch) } else p1

/-- INTA# is asserted toward the external host, Guest mode only (11 R121, 61 R755). -/
def pciInta (p : Pci) : Bool := !Config.pciHostMode && !(p.gIstatus &&& p.gImask = 0)

/-- A control word as read: START while running, STOP 0, TRANSFER SIZE open during and after a transfer (61 R746, 93 I60). DESIGN CHOICE:
STOP reads 0 also where it was written 1 to an idle channel; 61 R748 says so only of a stop that has taken effect (log entry 43). -/
def dmaCtrlRead (s : State) (ch : DmaChannel) : Word × State :=
  let d := s.pci.dma ch
  let w := mergeMask d.ctrl (if d.running then 1 else 0) 3
  if d.sizeOpen then (mergeMask w s.free.1 0xFFFFFF00#32, s.free.2) else (w, s)

/-- A write of a control word (61 R746, R748): the transfer takes size, command and PCI INTERRUPT of the word that starts it. STOP and
START together (a running channel stops, an idle one starts), sizes above the stated maximum, and a write with neither bit while a
transfer runs are DESIGN CHOICEs (log entry 43). -/
def dmaCtrlWrite (s : State) (ch : DmaChannel) (v : Word) : Except Refusal State :=
  let d := s.pci.dma ch
  let d1 := { d with ctrl := v, sizeOpen := d.running }
  if bit v 1 && d.running then .ok { s with pci := dmaStop (s.pci.setDma ch d1) ch 1 }
  else if bit v 0 then
    if d.running then .error .dmaRestart
    else if !dmaCommandOk ch (v.extractLsb' 4 4) || v.extractLsb' 8 24 = 0 then .error .dmaCommand
    else
      let d2 := { d1 with running := true, left := (v.extractLsb' 8 24).toNat, cmd := v.extractLsb' 4 4, pciIrq := bit v 3, sizeOpen := true }
      .ok { s with pci := s.pci.setDma ch d2 }
  else .ok { s with pci := s.pci.setDma ch d1 }

/-- CPU_VERSION: TYPE 2 Host, 1 Guest (11 R103). -/
def pciVersion : Word := (if Config.pciHostMode then 2#20 else 1#20) ++ Config.pciBridgeVersion

/-- PCI_CONTROL (11 R108). -/
def pciControl (p : Pci) : Word := (b1 p.masterEn ++ b1 p.memoryEn ++ b1 p.ready).setWidth 32

/-- A write of PCI_CONTROL clears the bits written 1 (mode R/W/C of 11 R92), but those that are always 1 in Host mode (11 R108; log
entry 44). -/
def pciControlWrite (p : Pci) (v : Word) : Pci :=
  { p with
    ready := p.ready && !bit v 0
    memoryEn := p.memoryEn && (Config.pciHostMode || !bit v 1)
    masterEn := p.masterEn && (Config.pciHostMode || !bit v 2) }

/-- Word read of the bridge register at 0xC0000000 + `off` (11 R92). -/
def readPci (s : State) (off : Nat) : Word × State :=
  let p := s.pci
  match off with
  | 0x000 => (p.wdma.pciAddr, s)
  | 0x004 => (p.wdma.ahbAddr, s)
  | 0x008 => dmaCtrlRead s .write
  | 0x020 => (p.rdma.pciAddr, s)
  | 0x024 => (p.rdma.ahbAddr, s)
  | 0x028 => dmaCtrlRead s .read
  | 0x040 => (p.imask, s)
  | 0x044 => (istatusNow s, s)
  | 0x048 => (0, s)
  | 0x04C => (pciVersion, s)
  | 0x070 => (p.addrNp, s)
  | 0x074 => (p.addrPf, s)
  | 0x078 => (p.pciahbTimer, s)
  | 0x07C => (p.ahbpciTimer, s)
  | 0x080 => (pciControl p, s)
  | 0x084 => (p.dv, s)
  | 0x088 => (p.sub, s)
  | 0x08C => (p.crev, s)
  | 0x090 => (p.broken.setWidth 32, s)
  | 0x094 => (p.sizNp, s)
  | 0x098 => (p.sizPf, s)
  | _ => openRead s

/-- The bridge after a plain register write (11 R93 to R114): address registers, write-1-to-clear status, doorbells, masks. A size mask
of more than 1 GB is stored and used as it is (log entry 44), a DMA address written while its channel runs moves the transfer there (log
entry 43), reserved bits without an access code read 0 (log entry 41), and in Guest mode PCI_BROKEN reads 0 and drops a store (DESIGN
CHOICE, log entry 44). -/
def writePciPlain (p : Pci) (off : Nat) (v : Word) : Pci :=
  match off with
  | 0x000 => { p with wdma := { p.wdma with pciAddr := v } }
  | 0x004 => { p with wdma := { p.wdma with ahbAddr := v } }
  | 0x020 => { p with rdma := { p.rdma with pciAddr := v } }
  | 0x024 => { p with rdma := { p.rdma with ahbAddr := v } }
  | 0x040 => { p with imask := v &&& 0x1F0F7F7F#32 }
  | 0x044 => { p with istatus := p.istatus &&& ~~~v }
  | 0x048 => if Config.pciHostMode then p else { p with gIstatus := p.gIstatus ||| (v &&& 0x00F00000#32) }
  | 0x070 => { p with addrNp := v &&& 0xFFFFFF01#32 }
  | 0x074 => { p with addrPf := v &&& 0xFFFFFF01#32 }
  | 0x078 => { p with pciahbTimer := v &&& 0xFFF#32 }
  | 0x07C => { p with ahbpciTimer := v &&& 0xFFF#32 }
  | 0x080 => pciControlWrite p v
  | 0x084 => { p with dv := v }
  | 0x088 => { p with sub := v }
  | 0x08C => { p with crev := v }
  | 0x090 => if Config.pciHostMode then { p with broken := p.broken &&& ~~~(v.extractLsb' 0 8) } else p
  | 0x094 => { p with sizNp := v &&& 0xFFFFFF00#32 }
  | 0x098 => { p with sizPf := v &&& 0xFFFFFF00#32 }
  | _ => p

/-- Word write of the bridge register at 0xC0000000 + `off` (11 R92). -/
def writePci (s : State) (off : Nat) (v : Word) : Except Refusal State :=
  match off with
  | 0x008 => dmaCtrlWrite s .write v
  | 0x028 => dmaCtrlWrite s .read v
  | _ => .ok { s with pci := writePciPlain s.pci off v }

/-- The bridge may master the PCI bus (61 R741). -/
def pciUsable (p : Pci) : Bool := if Config.pciHostMode then p.ready else p.masterEn

/-- The answer of an outside device to the next read, if the environment has one (log entry 14). -/
def State.takeAnswer (s : State) : Option BusAnswer × State :=
  match s.busAnswers with
  | [] => (none, s)
  | x :: rest => (some x, { s with busAnswers := rest })

/-- A failed read through an AHB-PCI window: CPU_ISTATUS bit 13, and open data (61 R742). -/
def pciWindowFail (s : State) : Option Word × State :=
  let s1 := { s with pci := s.pci.report 13 }
  if Config.pciWindowErrorTraps then (none, s1) else (some s1.free.1, s1.free.2)

/-! ### Data held by the prefetchable windows (61 R741 to R744). How much is read ahead, when, and when held data is fetched or goes
without a discard are DESIGN CHOICEs of log entry 54. -/

/-- The held word at `a`: the first of those held. -/
def Held.word (h : Held) (a : Word) : Option Word := if h.addr = a then h.words.head? else none

/-- The first held word has been fetched at time `now`; the rest wait from then on. -/
def Held.fetched (h : Held) (now : Nat) : Held := { addr := h.addr + 4, words := h.words.tail, since := now }

/-- Words are held that nothing has fetched for more than the count of a discard timer, bits 11:0 (11 R106, R107). -/
def Held.expired (h : Held) (now : Nat) (timer : Word) : Bool :=
  !h.words.isEmpty && decide ((timer.extractLsb' 0 12).toNat < now - h.since)

/-- PCI data held too long by the prefetchable AHB-PCI window is dropped and sets CPU_ISTATUS bit 14 (61 R742). -/
def discardPci (p : Pci) (now : Nat) : Pci :=
  if p.heldPci.expired now p.ahbpciTimer then { p with heldPci := Held.empty }.report 14 else p

/-- AHB data held too long by the prefetchable PCI-AHB window is dropped and sets CPU_ISTATUS bit 6 (61 R744). -/
def discardAhb (p : Pci) (now : Nat) : Pci :=
  if p.heldAhb.expired now p.pciahbTimer then { p with heldAhb := Held.empty }.report 6 else p

/-- The AHB address `a` lies in the prefetchable AHB-PCI window (61 R741). -/
def prefetchable (a : Word) : Bool := decide (0xE0000000 ≤ a.toNat)

/-- The bridge reads the words `ws` ahead of the PCI address `a`, as far as the window goes, and holds them. -/
def holdPci (s : State) (a : Word) (ws : List Word) : State :=
  let l := ws.take ((0xFFFFFFFC - a.toNat) / 4)
  { s with
    pci := { s.pci with heldPci := { addr := a + 4, words := l, since := s.clk } }
    out := ((List.range l.length).map fun k => Output.pciRead 6 (a + 4 + BitVec.ofNat 32 (4 * k)) 4).reverse ++ s.out }

/-- A read of the PCI bus through an AHB-PCI window (61 R741, R742): the answer of the PCI target. Where the environment has no answer,
and for less than a word (93 I61), the data is open. -/
def pciTargetRead (s : State) (io : Bool) (a : Word) (n : Nat) : Option Word × State :=
  let s1 := { s with out := .pciRead (if io then 2 else 6) a (BitVec.ofNat 4 n) :: s.out }
  match s1.takeAnswer with
  | (some { data := some w, ahead := ws }, s2) =>
    if n = 4 then (some w, if prefetchable a then holdPci s2 a ws else s2) else (some s2.free.1, s2.free.2)
  | (some { data := none, ahead := _ }, s2) => pciWindowFail s2
  | (none, s2) => (some s2.free.1, s2.free.2)

/-- A read through an AHB-PCI window: a held word, or a read of the PCI bus, which drops what the prefetchable window held. Before the
bridge may master the bus the access fails (93 I59; log entry 36). -/
def pciWindowRead (s : State) (io : Bool) (a : Word) (n : Nat) : Option Word × State :=
  if !pciUsable s.pci then pciWindowFail s
  else if prefetchable a then
    match (if n = 4 then s.pci.heldPci.word a else none) with
    | some w => (some w, { s with pci := { s.pci with heldPci := s.pci.heldPci.fetched s.clk } })
    | none => pciTargetRead { s with pci := { s.pci with heldPci := Held.empty } } io a n
  else pciTargetRead s io a n

/-- A posted write through an AHB-PCI window (61 R741), which drops the data held. Its failure is an event of the environment (61 R742),
or certain before the bridge may master the bus (93 I59; log entry 36). -/
def pciWindowWrite (s : State) (io : Bool) (a : Word) (n : Nat) (v : Word) : State :=
  if !pciUsable s.pci then { s with pci := s.pci.report 12 }
  else
    { s with
      pci := { s.pci with heldPci := Held.empty }, out := .pciWrite (if io then 3 else 7) a (BitVec.ofNat 4 n) v :: s.out }

end Sys2Proof.Machine
end

