-- ==== Sys2Proof/Machine/DsuRegs.lean ====
section
/-! DEFINITION. The DSU address space at 0x90000000 and entering and leaving debug mode (11 R130 to R156, 61 R760 to R764). -/

namespace Sys2Proof.Machine

/-- Entering debug mode with the trap type `tt` for DTR (61 R760). The link, if it is enabled, sends a response if DR = 1 (10_state R82,
61 R782). DESIGN CHOICE: it does so on every such entry, from error mode and power-down too, where R782 names only the one from running and
11 R131 says it of entering debug mode (log entry 46). -/
def enterDebug (s : State) (tt : BitVec 8) : State :=
  { s with
    debugMode := true
    dsu := { s.dsu with dtr := tt, stepping := false, breakReq := false }
    out := if bit s.dsu.ctrl 18 && bit s.dev.dsuUartCtrl 0 then .linkResponse :: s.out else s.out }

/-- Leaving debug mode; SS = 1 makes it a single step while DSUEN is high (61 R760, R762). -/
def leaveDebug (s : State) : State :=
  { s with debugMode := false, dsu := { s.dsu with stepping := bit s.dsu.ctrl 16 && s.pins.dsuen, breakReq := false } }

/-- The DSU control register as read: PE, EE, EB and DM are status, RE reads 0 (11 R131, 61 R763). -/
def dsuCtrlRead (s : State) : Word :=
  (s.dsu.ctrl &&& 0x1FF70FFF#32) |||
    ((b1 s.errorMode ++ b1 s.pins.dsuen ++ b1 s.pins.dsubre ++ b1 s.debugMode).setWidth 32 <<< 12)

/-- A write of the DSU control register: RE, BN, and resumption by BN = 0 (11 R131, 61 R762, R763). DESIGN CHOICE: bits 31:29, which R131
counts to a 9-bit DCNT, are dropped and read 0 (log entry 41); BN = 0 does not take back a break that is requested and not yet taken (log
entry 27). -/
def dsuCtrlWrite (s : State) (v : Word) : State :=
  let s1 := { s with dsu := { s.dsu with ctrl := v &&& 0x1FF70FFF#32 }, errorMode := s.errorMode && !bit v 19 }
  if s1.debugMode then (if bit v 7 then s1 else leaveDebug s1)
  else if bit v 7 && s1.pins.dsuen then { s1 with dsu := { s1.dsu with breakReq := true } }
  else s1

/-- Trace buffer control (11 R150; the layout is log entry 28): IIDX 8:0, AIDX 20:12, TI 24, TA 25. In mixed mode the most significant
bits of the indices are held. Writing it restarts a frozen trace. -/
def traceCtrlRead (d : Dsu) : Word := 0#6 ++ b1 d.ta ++ b1 d.ti ++ 0#3 ++ d.aidx ++ 0#3 ++ d.iidx
def traceCtrlWrite (d : Dsu) (v : Word) : Dsu :=
  let mixed := bit v 24 && bit v 25
  { d with
    iidx := if mixed then 0#1 ++ v.extractLsb' 0 8 else v.extractLsb' 0 9
    aidx := if mixed then 1#1 ++ v.extractLsb' 12 8 else v.extractLsb' 12 9
    ti := bit v 24, ta := bit v 25, frozen := false }

/-- Word `k` (0 the highest) of a trace line (11 R152). -/
def traceWord (line : BitVec 128) (k : Nat) : Word := line.extractLsb' (96 - 32 * k) 32
def traceWordSet (line : BitVec 128) (k : Nat) (v : Word) : BitVec 128 :=
  (line &&& ~~~(0xFFFFFFFF#128 <<< (96 - 32 * k))) ||| (v.setWidth 128 <<< (96 - 32 * k))

/-- W[k] at offset 4((k + 8) mod 128) of 0x90020000 (10_state R24): the file index at an offset below 0x200. -/
def dsuWindowIndex (off : Nat) : Fin 136 := ⟨8 + (off / 4 + 120) % 128, by omega⟩

/-- The file index of a global at 0x90020280 + 4n. -/
def dsuGlobalIndex (off : Nat) : Fin 136 := ⟨(off - 0x280) / 4 % 8, by omega⟩

/-- The processor registers at 0x90020000 + `off`, off < 0x2A0 (10_state R24, 61 R764). -/
def dsuFileRead (s : State) (off : Nat) : Word :=
  if off < 0x200 then (s.ireg.get (dsuWindowIndex off)).data
  else if off < 0x280 then (s.freg.get ⟨(off - 0x200) / 4 % 32, Nat.mod_lt _ (by decide)⟩).data
  else if off < 0x284 then 0
  else (s.ireg.get (dsuGlobalIndex off)).data
def dsuFileWrite (s : State) (off : Nat) (v : Word) : State :=
  let w : RegWord := { data := v, flip := 0 }
  if off < 0x200 then { s with ireg := s.ireg.set (dsuWindowIndex off).val w (dsuWindowIndex off).isLt }
  else if off < 0x280 then
    { s with freg := s.freg.set ((off - 0x200) / 4 % 32) w (Nat.mod_lt _ (by decide)) }
  else if off < 0x284 then s
  else { s with ireg := s.ireg.set (dsuGlobalIndex off).val w (dsuGlobalIndex off).isLt }

/-- The control registers at 0x90080000 + `off` (11 R130, R134). -/
def dsuCpuRead (s : State) (off : Nat) : Option Word :=
  match off with
  | 0x00 => some s.y
  | 0x04 => some (psrWord s.psr)
  | 0x08 => some (s.wim.setWidth 32)
  | 0x0C => some (tbrWord s.tba s.tt)
  | 0x10 => some s.pc
  | 0x14 => some s.npc
  | 0x18 => some (fsrWord s.fsr)
  | 0x1C => some (0#20 ++ s.dsu.dtr ++ 0#4)
  | 0x48 => some s.asr18
  | _ => if 0x60 ≤ off && off < 0x80 then some (asrRead s (BitVec.ofNat 5 (24 + (off - 0x60) / 4))) else none

/-- Writes take effect with no checks (61 R764); the two low bits of PC and NPC are dropped, and CWP takes three bits (log entry
27). -/
def dsuCpuWrite (s : State) (off : Nat) (v : Word) : State :=
  match off with
  | 0x00 => { s with y := v }
  | 0x04 => { s with psr := psrWritten s.psr v }
  | 0x08 => { s with wim := v.extractLsb' 0 8 }
  | 0x0C => { s with tba := v.extractLsb' 12 20 }
  | 0x10 => { s with pc := wordBase v }
  | 0x14 => { s with npc := wordBase v }
  | 0x18 => { s with fsr := fsrLoaded s.fsr v }
  | 0x48 => { s with asr18 := v }
  | _ => if 0x60 ≤ off && off < 0x80 then asrWrite s (BitVec.ofNat 5 (24 + (off - 0x60) / 4)) v else s

/-- The cache array of a DSU window (11 R135): cache, tags or data. -/
def dsuCacheWindow (off : Nat) : Option (CacheId × Bool) :=
  if 0x100000 ≤ off && off < 0x108000 then some (.icache, true)
  else if 0x140000 ≤ off && off < 0x148000 then some (.icache, false)
  else if 0x180000 ≤ off && off < 0x184000 then some (.dcache, true)
  else if 0x1C0000 ≤ off && off < 0x1C4000 then some (.dcache, false)
  else none

/-- The trace buffer is accessible (61 R768). -/
def traceAccessible (s : State) : Bool := !bit s.dsu.ctrl 0 || s.dsu.frozen

/-- Word read at 0x90000000 + `off` (11 R130). Outside the conditions given, the value is open (93 I21, I64). -/
def readDsu (s : State) (off : Nat) : Word × State :=
  match off with
  | 0x00 => (dsuCtrlRead s, s)
  | 0x04 => (traceCtrlRead s.dsu, s)
  | 0x08 => (s.dsu.timeTag.setWidth 32, s)
  | 0x10 => (s.dsu.bpAddr1, s)
  | 0x14 => (s.dsu.bpMask1, s)
  | 0x18 => (s.dsu.bpAddr2, s)
  | 0x1C => (s.dsu.bpMask2, s)
  | _ =>
    if 0x10000 ≤ off && off < 0x12000 then
      if traceAccessible s then (traceWord (sparseGet 0 s.dsu.trace ((off - 0x10000) / 16)) (off / 4 % 4), s) else openRead s
    else if !s.debugMode then openRead s
    else if 0x20000 ≤ off && off < 0x202A0 then (dsuFileRead s (off - 0x20000), s)
    else if 0x80000 ≤ off && off < 0x80080 then
      match dsuCpuRead s (off - 0x80000) with
      | some w => (w, s)
      | none => openRead s
    else match dsuCacheWindow off with
      | some (c, t) => diagRead s c t (BitVec.ofNat 32 off)
      | none => openRead s

/-- Word write at 0x90000000 + `off` (11 R130). Outside the conditions given, the write is dropped (93 I21, I64). A write of the time
tag counter sets it (log entry 45). -/
def writeDsu (s : State) (off : Nat) (v : Word) : State :=
  match off with
  | 0x00 => dsuCtrlWrite s v
  | 0x04 => { s with dsu := traceCtrlWrite s.dsu v }
  | 0x08 => { s with dsu := { s.dsu with timeTag := v.extractLsb' 0 30 } }
  | 0x10 => { s with dsu := { s.dsu with bpAddr1 := v &&& 0xFFFFFFFD#32 } }
  | 0x14 => { s with dsu := { s.dsu with bpMask1 := v } }
  | 0x18 => { s with dsu := { s.dsu with bpAddr2 := v &&& 0xFFFFFFFD#32 } }
  | 0x1C => { s with dsu := { s.dsu with bpMask2 := v } }
  | _ =>
    if 0x10000 ≤ off && off < 0x12000 then
      if traceAccessible s then
        let k := (off - 0x10000) / 16
        { s with dsu := { s.dsu with
          trace := sparseSet 0 s.dsu.trace k (traceWordSet (sparseGet 0 s.dsu.trace k) (off / 4 % 4) v) } }
      else s
    else if !s.debugMode then s
    else if 0x20000 ≤ off && off < 0x202A0 then dsuFileWrite s (off - 0x20000) v
    else if 0x80000 ≤ off && off < 0x80080 then dsuCpuWrite s (off - 0x80000) v
    else match dsuCacheWindow off with
      | some (c, t) => diagWrite s c t (BitVec.ofNat 32 off) v
      | none => s

end Sys2Proof.Machine
end

