-- ==== Sys2Proof/Machine/Bus.lean ====
section
/-! DEFINITION. One bus transfer, and the accesses of the IU through the caches (20_memory R206, R211 to R221, R236, R246 to R248). -/

namespace Sys2Proof.Machine

/-- What an access gives: a value, an error response, or a refusal of the model. -/
inductive Bus (α : Type) where
  | ok (v : α) (s : State)
  | err (s : State)
  | refuse (r : Refusal)
  deriving Repr

/-- Access widths. `dword` is one word of a doubleword access (20_memory R202, R203). -/
inductive Size where
  | byte
  | half
  | word
  | dword
  deriving DecidableEq, Repr

/-- Bytes of one bus transfer. -/
def Size.bytes : Size → Nat
  | .byte => 1
  | .half => 2
  | .word => 4
  | .dword => 4

/-- Offset `off` of 0x80000000 lies in a register of the table of 10_state R42, those of R59 left out. -/
def regListed (off : Nat) : Bool :=
  off < 0x28 || (0x40 ≤ off && off < 0x5C) || (0x60 ≤ off && off < 0x68) || (0x70 ≤ off && off < 0xAC) || (0xC4 ≤ off && off < 0xD4) ||
    (0xE0 ≤ off && off < 0xF0) || (0x100 ≤ off && off < 0x11C)

/-- Offset `off` of 0xC0000000 lies in a register of Table 6-1, those of 11 R119 left out. -/
def pciListed (off : Nat) : Bool :=
  off < 0xC || (0x20 ≤ off && off < 0x2C) || (0x40 ≤ off && off < 0x50) || (0x70 ≤ off && off < 0x9C)

/-- The model defines an access of this width: the on-chip and the bridge registers take word accesses only (10_state R58, 93 I2),
while an offset that no table lists gives any value, or drops the store, at every width (93 I64, 92 D8; log entry 23). -/
def widthDefined (listed : Bool) (sz : Size) : Bool := sz = .word || !listed

/-- The DSU takes accesses of whole words, those of a doubleword among them (61 R764, 20_memory R203). A narrower read gives an open
value, a narrower store is dropped (93 I21, I64; log entry 52). -/
def wholeWord (sz : Size) : Bool := sz = .word || sz = .dword

/-- A pair of an optional value and a state, as a bus answer. -/
def busOf (p : Option Word × State) : Bus Word :=
  match p with
  | (some w, s) => .ok w s
  | (none, s) => .err s

/-- The I/O area: the device's answer, or an open value (20_memory R213, R229 (c)). DESIGN CHOICE: a byte or halfword is in the low bits
of the answer at every address (log entry 14). -/
def ioRead (s : State) (a : Word) (n : Nat) : Word × State :=
  let s1 := { s with out := .ioRead a (BitVec.ofNat 4 n) :: s.out }
  match s1.takeAnswer with
  | (some { data := some w, ahead := _ }, s2) => (subword w n (4 - n), s2)
  | (_, s2) => (subword s2.free.1 n (4 - n), s2.free.2)

/-- The area rules of a read (20_memory R211 to R221). -/
def areaRead (s : State) (fetching : Bool) (a : Word) (sz : Size) : Bus Word :=
  let n := sz.bytes
  match areaOf a with
  | .prom =>
    if busException s then .err s
    else match readProm s fetching (wordBase a) with
      | (some w, s1) => .ok (subword w n (a.toNat % 4)) s1
      | (none, s1) => .err s1
  | .io => if !bit s.dev.mcfg1 19 || busException s then .err s else let r := ioRead s a n; .ok r.1 r.2
  | .ram =>
    match ramBank s.dev a with
    | none => .err s
    | some b =>
      if busException s then .err s
      else match readRam s b (wordBase a) with
        | (some w, s1) => .ok (subword w n (a.toNat % 4)) s1
        | (none, s1) => .err s1
  | .regs =>
    let off := a.toNat - 0x80000000
    if widthDefined (regListed off) sz then let r := readReg s off; .ok r.1 r.2 else .refuse .registerAccessWidth
  | .dsu => let r := if wholeWord sz then readDsu s (a.toNat - 0x90000000) else openRead s; .ok r.1 r.2
  | .pciRegs =>
    let off := a.toNat - 0xC0000000
    if widthDefined (pciListed off) sz then let r := readPci s off; .ok r.1 r.2 else .refuse .registerAccessWidth
  | .pciIo => busOf (pciWindowRead s true a n)
  | .pciMem => busOf (pciWindowRead s false a n)
  | .unassigned => .err s

/-- A write to the RAM area: protection, bank, bus exception, EDAC (20_memory R236, R214, R220, R276). -/
def ramWrite (s : State) (a : Word) (n : Nat) (v : Word) : Bus Unit :=
  if writeProtected s.dev a then .err s
  else match ramBank s.dev a with
    | none => .err s
    | some b =>
      if busException s then .err s
      else match writeRam s b a n v with
        | none => .err s
        | some s1 => .ok () s1

/-- The area rules of a write (20_memory R206, R211 to R221). -/
def areaWrite (s : State) (a : Word) (sz : Size) (v : Word) : Bus Unit :=
  let n := sz.bytes
  match areaOf a with
  | .prom => if !bit s.dev.mcfg1 11 || busException s then .err s else .ok () (writeProm s a n v)
  | .io =>
    if !bit s.dev.mcfg1 19 || busException s then .err s
    else .ok () { s with out := .ioWrite a (BitVec.ofNat 4 n) v :: s.out }
  | .ram => ramWrite s a n v
  | .regs =>
    let off := a.toNat - 0x80000000
    if widthDefined (regListed off) sz then .ok () (writeReg s off v) else .refuse .registerAccessWidth
  | .dsu => .ok () (if wholeWord sz then writeDsu s (a.toNat - 0x90000000) v else s)
  | .pciRegs =>
    let off := a.toNat - 0xC0000000
    if widthDefined (pciListed off) sz then
      match writePci s off v with
      | .ok s1 => .ok () s1
      | .error r => .refuse r
    else .refuse .registerAccessWidth
  | .pciIo => .ok () (pciWindowWrite s true a n v)
  | .pciMem => .ok () (pciWindowWrite s false a n v)
  | .unassigned => .err s

/-- One read transfer on the bus: the area rule, the latch of an error, and what the DSU sees (20_memory R234, 61 R766). -/
def busRead (s : State) (m : Master) (fetching : Bool) (a : Word) (sz : Size) : Bus Word :=
  match areaRead s fetching a sz with
  | .ok v s1 => .ok v (dsuSeesBus s1 m false a sz.bytes (some v))
  | .err s1 => .err (dsuSeesBus (latchBusError s1 m true a sz.bytes) m false a sz.bytes none)
  | .refuse r => .refuse r

/-- One write transfer on the bus. A write of another master is snooped (20_memory R252). DESIGN CHOICE: the DSU sees it in the state
after the write, its own enables and breakpoints as just written (11 R154, 61 R768; log entry 28). -/
def busWrite (s : State) (m : Master) (a : Word) (sz : Size) (v : Word) : Bus Unit :=
  match areaWrite s a sz v with
  | .ok _ s1 =>
    let s2 := if m = .iu then s1 else snoop s1 a
    .ok () (dsuSeesBus s2 m true a sz.bytes (some v))
  | .err s1 => .err (dsuSeesBus (latchBusError s1 m false a sz.bytes) m true a sz.bytes (some v))
  | .refuse r => .refuse r

/-! ### The IU's accesses, through the caches -/

/-- The word `w` read at `a` goes into the instruction cache with the other word of its aligned pair (log entry 16). `way` is given
after a parity error, and there the correct word is written even where the other one cannot be read (20_memory R254). -/
def fillFetch (s : State) (way : Option Nat) (a w : Word) : State :=
  match busRead s .iu true (a ^^^ 4) .word, way with
  | .ok w2 s2, some k => fillWay s2 .icache k a [(a, w), (a ^^^ 4, w2)]
  | .ok w2 s2, none => allocate s2 .icache a [(a, w), (a ^^^ 4, w2)]
  | _, some k => mendWay s .icache k a w
  | _, none => s

/-- `Fetch` (20_memory R206, R246, R254). -/
def fetchWord (s : State) (a : Word) : Bus Word :=
  if cacheable a && cacheOn s.dev .icache then
    match cacheLookup s .icache a with
    | .hit v s1 => .ok v s1
    | .refill k s1 =>
      match busRead s1 .iu true a .word with
      | .ok w s2 => .ok w (fillFetch s2 (some k) a w)
      | r => r
    | .miss =>
      match busRead s .iu true a .word with
      | .ok w s2 => .ok w (if cacheEnabled s.dev .icache then fillFetch s2 none a w else s2)
      | r => r
  else busRead s .iu true a .word

/-- What an address space asks of the data cache (20_memory R248): the normal use, or a forced miss with or without allocation. -/
inductive CacheUse where
  | normal
  | forceAllocate
  | forceUpdate
  deriving DecidableEq, Repr

/-- A data read of the word that holds `a`, in a cacheable area with the data cache on (20_memory R246, R248, R254). DESIGN CHOICE: a byte
or halfword load too makes a word transfer at the word address, which an error latches, filled or not (R206, R234; log entry 16). -/
def cachedReadWord (s : State) (use : CacheUse) (a : Word) : Bus Word :=
  let b := wordBase a
  match use with
  | .normal =>
    match cacheLookup s .dcache b with
    | .hit v s1 => .ok v s1
    | .refill k s1 =>
      match busRead s1 .iu false b .word with
      | .ok w s2 => .ok w (fillWay s2 .dcache k b [(b, w)])
      | r => r
    | .miss =>
      match busRead s .iu false b .word with
      | .ok w s2 => .ok w (if cacheEnabled s.dev .dcache then allocate s2 .dcache b [(b, w)] else s2)
      | r => r
  | _ =>
    match busRead s .iu false b .word with
    | .ok w s2 =>
      match hitWay .dcache s2.dcache b with
      | some _ => .ok w (updateCached s2 .dcache b 4 0 w)
      | none =>
        .ok w (if use = .forceAllocate && cacheEnabled s.dev .dcache then allocate s2 .dcache b [(b, w)] else s2)
    | r => r

/-- A data read of the IU (20_memory R206): the value right-aligned. -/
def dataRead (s : State) (use : CacheUse) (a : Word) (sz : Size) : Bus Word :=
  if cacheable a && cacheOn s.dev .dcache then
    match cachedReadWord s use a with
    | .ok w s1 => .ok (subword w sz.bytes (a.toNat % 4)) s1
    | r => r
  else busRead s .iu false a sz

/-- A data write of the IU: memory, then a cached copy (20_memory R206, R247, R248). -/
def dataWrite (s : State) (a : Word) (sz : Size) (v : Word) : Bus Unit :=
  match busWrite s .iu a sz v with
  | .ok _ s1 =>
    .ok () (if cacheable a && cacheOn s1.dev .dcache then updateCached s1 .dcache (wordBase a) sz.bytes (a.toNat % 4) v else s1)
  | r => r

end Sys2Proof.Machine
end

