-- ==== Sys2Proof/Machine/Ops.lean ====
section
/-! DEFINITION. The named operations the meanings are written over: registers with their EDAC, traps and the return from one,
sequencing, loads and stores (20_memory R260 to R262, 60 R621 to R646, 42 R470, 40 R351). -/

namespace Sys2Proof.Machine

/-- The answer of a meaning. -/
abbrev Result := Host.Outcome State Fault Refusal

/-! ### Registers -/

/-- A corrected single-bit error counts while CB = "0000", up to 0xFFFF (20_memory R261; 93 I5, log entry 37). -/
def countCorrected (a : Asr16) : Asr16 :=
  if a.cb = 0 && !(a.cnt = 0xFFFF#16) then { a with cnt := a.cnt + 1 } else a

/-- The data of `r[n]` as stored; `r[0]` reads 0 (10_state R21, R22). -/
def State.r (s : State) (n : RegNum) : Word := if n = 0 then 0 else (s.ireg.get (regIndex s.psr.cwp n)).data

/-- The read of source register `r[n]`: corrected if it can be, `none` if not (20_memory R260). DESIGN CHOICE: the corrected value is
written back without injection, whatever ASR16.CB is (R262; log entry 17). -/
def readR (s : State) (n : RegNum) : Option (Word × State) :=
  if n = 0 then some (0, s)
  else
    let i := regIndex s.psr.cwp n
    let w := s.ireg.get i
    if w.flip = 0 then some (w.data, s)
    else match edacFix w.flip with
      | none => none
      | some g =>
        let d := fixData w.data w.flip g
        some (d, { s with ireg := s.ireg.set i.val { data := d, flip := g } i.isLt, asr16 := countCorrected s.asr16 })

/-- A register-file word written by the IU, with error injection while ASR16.CB = "1010" (20_memory R262). -/
def writtenWord (s : State) (v : Word) : RegWord :=
  if s.asr16.cb = 0b1010#4 then { data := v ^^^ s.asr17, flip := s.asr16.tcb ++ s.asr17 } else { data := v, flip := 0 }

/-- `r[n] <- v`; a write to `r[0]` is discarded (10_state R22). -/
def writeR (s : State) (n : RegNum) (v : Word) : State :=
  if n = 0 then s
  else
    let i := regIndex s.psr.cwp n
    { s with ireg := s.ireg.set i.val (writtenWord s v) i.isLt }

/-- The data of `f[n]` as stored (10_state R36). -/
def State.f (s : State) (n : RegNum) : Word := (s.freg.get (fregIndex n)).data

/-- The read of source register `f[n]` (20_memory R260), written back as `readR` does (log entry 17). -/
def readF (s : State) (n : RegNum) : Option (Word × State) :=
  let i := fregIndex n
  let w := s.freg.get i
  if w.flip = 0 then some (w.data, s)
  else match edacFix w.flip with
    | none => none
    | some g =>
      let d := fixData w.data w.flip g
      some (d, { s with freg := s.freg.set i.val { data := d, flip := g } i.isLt, asr16 := countCorrected s.asr16 })

/-- `f[n] <- v`; never injected (20_memory R262; 93 I37). -/
def writeF (s : State) (n : RegNum) (v : Word) : State :=
  { s with freg := s.freg.set (fregIndex n).val { data := v, flip := 0 } (fregIndex n).isLt }

/-! ### Taking a trap (60 R640, R646; 61 R761) -/

/-- Trap types (60 R622). -/
def ttInstructionAccess : BitVec 8 := 0x01
def ttIllegal : BitVec 8 := 0x02
def ttPrivileged : BitVec 8 := 0x03
def ttFpDisabled : BitVec 8 := 0x04
def ttWindowOverflow : BitVec 8 := 0x05
def ttWindowUnderflow : BitVec 8 := 0x06
def ttNotAligned : BitVec 8 := 0x07
def ttFpException : BitVec 8 := 0x08
def ttDataAccess : BitVec 8 := 0x09
def ttTagOverflow : BitVec 8 := 0x0A
def ttWatchpoint : BitVec 8 := 0x0B
def ttRegisterError : BitVec 8 := 0x20
def ttCpDisabled : BitVec 8 := 0x24
def ttDivisionByZero : BitVec 8 := 0x2A
def ttStoreError : BitVec 8 := 0x2B

/-- The trap or interrupt of type `tt` enters debug mode instead of being taken (61 R761). -/
def debugOnTrap (s : State) (tt : BitVec 8) : Bool :=
  let c := s.dsu.ctrl
  let spared := tt = 0x03 || tt = 0x04 || tt = 0x05 || (0x11#8 ≤ tt && tt ≤ 0x1F#8) || 0x80#8 ≤ tt
  s.pins.dsuen && (bit c 9 || (bit c 10 && !spared) || (bit c 6 && tt = 0x81) || (bit c 5 && tt = ttWatchpoint) ||
    (bit c 4 && !s.psr.et))

/-- PSR after trap entry (60 R640). -/
def Psr.trapEntry (p : Psr) : Psr := { p with et := false, ps := p.s, s := true, cwp := p.cwp - 1 }

/-- Trap entry: PSR changes, pc and npc go to r[17] and r[18] of the new window, tt is written, pc goes to the trap table (60 R640). -/
def enterTrap (s : State) (tt : BitVec 8) : State :=
  let s1 := { s with psr := s.psr.trapEntry, trapped := true }
  let s2 := writeR (writeR s1 17 s.pc) 18 s.npc
  { s2 with tt := tt, pc := tbrWord s.tba tt, npc := tbrWord s.tba tt + 4 }

/-- A precise trap of type `tt`: debug mode, error mode, or entry of `s` changed by `eff` (what the trapping instruction's rule
writes, FSR.ftt and cexc). -/
def trapState (s : State) (eff : State → State) (tt : BitVec 8) : State :=
  if debugOnTrap s tt then enterDebug { s with trapped := true } tt
  else if !s.psr.et then { s with trapped := true, errorMode := true }
  else enterTrap (eff s) tt

/-- `raise` (00 R12). -/
def raise (s : State) (tt : BitVec 8) : Result := .next (trapState s id tt)

/-- `raise fp_exception(ftt)` (00 R12, 44 R561). -/
def raiseFp (s : State) (ftt : BitVec 3) : Result :=
  .next (trapState s (fun t => { t with fsr := { t.fsr with ftt := ftt } }) ttFpException)

/-- RETT's error-mode cases write tt (42 R478, 60 R646). -/
def rettError (s : State) (tt : BitVec 8) : Result :=
  if debugOnTrap s tt then .next (enterDebug { s with trapped := true } tt)
  else .next { s with trapped := true, errorMode := true, tt := tt }

/-- PSR after RETT (42 R478): CWP + 1, S from PS, ET = 1. -/
def Psr.returned (p : Psr) : Psr := { p with cwp := p.cwp + 1, s := p.ps, et := true }

/-! ### Sequencing (42 R470) -/

/-- `advance`. -/
def advance (s : State) : State := { s with pc := s.npc, npc := s.npc + 4 }

/-- A delayed transfer: `pc <- target` of a rule. -/
def jump (s : State) (target : Word) : State := { s with pc := s.npc, npc := target }

/-- The instruction now at pc is to be skipped. -/
def annulNext (s : State) : State := { s with annul := true }

/-- The skip of an annulled instruction. -/
def skipAnnulled (s : State) : State := if s.annul then { advance s with annul := false } else s

/-! ### Watchpoints (60 R632) -/

/-- Watchpoint `w` compares `a` on its mask. -/
def wpMatch (w : Watchpoint) (a : Word) : Bool := (a.extractLsb' 2 30 ^^^ w.waddr) &&& w.wmask = 0

/-- Some watchpoint matches the fetch at `a`, or the data access at `a` of the kinds given. -/
def watchFetch (s : State) (a : Word) : Bool := s.wp.toList.any (fun w => w.ifEn && wpMatch w a)
def watchData (s : State) (isLoad isStore : Bool) (a : Word) : Bool :=
  s.wp.toList.any (fun w => ((isLoad && w.dl) || (isStore && w.ds)) && wpMatch w a)

/-! ### The order of checks (30 R315, 40 R351) -/

/-- The checks of priority 4 to 7: the first condition that holds traps, then a watchpoint on the fetch, then `k`. -/
def checked (s : State) (checks : List (Bool × BitVec 8)) (k : Result) : Result :=
  match checks with
  | [] => if watchFetch s s.pc then raise s ttWatchpoint else k
  | (c, tt) :: rest => if c then raise s tt else checked s rest k

/-- With the value of `r[n]`, or register_hardware_error (60 R633). -/
def withR (s : State) (n : RegNum) (k : State → Word → Result) : Result :=
  match readR s n with
  | none => raise s ttRegisterError
  | some (v, s1) => k s1 v

/-- With the value of `f[n]`, or register_hardware_error (60 R633). -/
def withF (s : State) (n : RegNum) (k : State → Word → Result) : Result :=
  match readF s n with
  | none => raise s ttRegisterError
  | some (v, s1) => k s1 v

/-- With what a load gives, or data_access_exception (60 R636). -/
def withLoad (s : State) (use : CacheUse) (a : Word) (sz : Size) (k : State → Word → Result) : Result :=
  match dataRead s use a sz with
  | .ok v s1 => k s1 v
  | .err s1 => raise s1 ttDataAccess
  | .refuse r => .refused r

/-- After a store, or data_store_error (60 R629). -/
def withStore (s : State) (a : Word) (sz : Size) (v : Word) (k : State → Result) : Result :=
  match dataWrite s a sz v with
  | .ok _ s1 => k s1
  | .err s1 => raise s1 ttStoreError
  | .refuse r => .refused r

end Sys2Proof.Machine
end

