-- ==== Sys2Proof/Machine/Operands.lean ====
section
/-! DEFINITION. Operand forms: `operand2`, effective address, shift count, trap number, branch target (00 R11, 30 R301, R312, 40 R350,
41 section 4, 42 R473, R476, R479). -/

namespace Sys2Proof.Machine

/-- `sext_13(simm13)` truncated to 32 bits (00 R11). -/
def sext13 (i : BitVec 13) : Word := i.signExtend 32

/-- The value of `operand2` in a state whose registers are good. -/
def State.operand2 (s : State) : RegImm → Word
  | .reg rs2 => s.r rs2
  | .imm i => sext13 i

/-- With `operand2` (00 R11). -/
def withOperand2 (s : State) (op2 : RegImm) (k : State → Word → Result) : Result :=
  match op2 with
  | .reg rs2 => withR s rs2 k
  | .imm i => k s (sext13 i)

/-- With `r[rs1]` and `operand2`. -/
def withOperands (s : State) (rs1 : RegNum) (op2 : RegImm) (k : State → Word → Word → Result) : Result :=
  withR s rs1 fun s1 a => withOperand2 s1 op2 fun s2 b => k s2 a b

/-- With the effective address `trunc_32(r[rs1] + operand2)` (40 R350). -/
def withAddress (s : State) (rs1 : RegNum) (op2 : RegImm) (k : State → Word → Result) : Result :=
  withOperands s rs1 op2 fun s1 a b => k s1 (a + b)

/-- The effective address, where both its registers can be read, and the state after reading them (40 R350, 20_memory R260). -/
def readAddress (s : State) (rs1 : RegNum) (op2 : RegImm) : Option Word × State :=
  match readR s rs1 with
  | none => (none, s)
  | some (a, s1) =>
    match op2 with
    | .imm i => (some (a + sext13 i), s1)
    | .reg rs2 =>
      match readR s1 rs2 with
      | none => (none, s1)
      | some (b, s2) => (some (a + b), s2)

/-- A watchpoint on the data address `a` (60 R632). -/
def withWatch (s : State) (isLoad isStore : Bool) (a : Word) (k : Result) : Result :=
  if watchData s isLoad isStore a then raise s ttWatchpoint else k

/-- With the effective address of a memory access, after the test of the data watchpoints; the address of an unreadable register, which
the watchpoints see before register_hardware_error, is open (40 R351; log entry 51). -/
def withAccess (s : State) (rs1 : RegNum) (op2 : RegImm) (isLoad isStore : Bool) (k : State → Word → Result) : Result :=
  match readAddress s rs1 op2 with
  | (some a, s1) => withWatch s1 isLoad isStore a (k s1 a)
  | (none, s1) => withWatch s1.free.2 isLoad isStore s1.free.1 (raise s1.free.2 ttRegisterError)

/-- With `r[rs1]` and the shift count `n = b[4:0]` (41 section 4). -/
def withShift (s : State) (rs1 : RegNum) (cnt : ShiftArg) (k : State → Word → BitVec 5 → Result) : Result :=
  withR s rs1 fun s1 a =>
    match cnt with
    | .reg rs2 => withR s1 rs2 fun s2 b => k s2 a (b.extractLsb' 0 5)
    | .imm n => k s1 a n

/-- With the trap number `trunc_7(r[rs1] + operand2)` (42 R479). -/
def withTrapNumber (s : State) (rs1 : RegNum) (arg : TrapArg) (k : State → BitVec 7 → Result) : Result :=
  withR s rs1 fun s1 a =>
    match arg with
    | .reg rs2 => withR s1 rs2 fun s2 b => k s2 ((a + b).extractLsb' 0 7)
    | .imm n => k s1 ((a + n.setWidth 32).extractLsb' 0 7)

/-- The target of a branch: PC + 4 * sext_22(disp22) (42 R473). -/
def branchTarget (pc : Word) (disp22 : BitVec 22) : Word := pc + (disp22.signExtend 32 <<< 2)

/-- The target of a CALL: PC + 4 * disp30 (42 R476). -/
def callTarget (pc : Word) (disp30 : BitVec 30) : Word := pc + (disp30.setWidth 32 <<< 2)

end Sys2Proof.Machine
end

