-- ==== Sys2Proof/Machine/Flags.lean ====
section
/-! DEFINITION. Condition codes: how they are computed and how they are tested (41 R402, R422, R428, 30 R310, R311). -/

namespace Sys2Proof.Machine

/-- N, Z, V, C (10_state R27). -/
structure Icc where
  n : Bool
  z : Bool
  v : Bool
  c : Bool
  deriving DecidableEq, Repr

/-- PSR.icc := x. -/
def setIcc (s : State) (x : Icc) : State := { s with psr := { s.psr with n := x.n, z := x.z, v := x.v, c := x.c } }

/-- `icc_logic` (41 R402). -/
def iccLogic (res : Word) : Icc := { n := res.msb, z := res = 0, v := false, c := false }

/-- `icc_add(a, b, cin, res)` (41 R402). -/
def iccAdd (a b : Word) (cin : Bool) (res : Word) : Icc :=
  { n := res.msb, z := res = 0, v := a.msb = b.msb && res.msb ≠ a.msb, c := decide (2 ^ 32 ≤ a.toNat + b.toNat + cin.toNat) }

/-- `icc_sub(a, b, cin, res)` (41 R402). -/
def iccSub (a b : Word) (cin : Bool) (res : Word) : Icc :=
  { n := res.msb, z := res = 0, v := a.msb ≠ b.msb && res.msb = b.msb, c := decide (a.toNat < b.toNat + cin.toNat) }

/-- A tag is nonzero: bits 1:0 of either operand (41 sections 6 and 8). -/
def tagged (a b : Word) : Bool := !(a.extractLsb' 0 2 = 0) || !(b.extractLsb' 0 2 = 0)

/-- `tagev_add`, `tagev_sub` (41 sections 6 and 8). -/
def tagevAdd (a b res : Word) : Bool := tagged a b || (a.msb = b.msb && res.msb ≠ a.msb)
def tagevSub (a b res : Word) : Bool := tagged a b || (a.msb ≠ b.msb && res.msb = b.msb)

/-- A bit as a word, for carries. -/
def carryWord (c : Bool) : Word := if c then 1 else 0

/-- The sixteen integer conditions (30 R310). -/
inductive Cond where
  | always
  | never
  | ne
  | e
  | g
  | le
  | ge
  | l
  | gu
  | leu
  | cc
  | cs
  | pos
  | neg
  | vc
  | vs
  deriving DecidableEq, Repr

/-- `cond_true(cond, PSR.icc)` (30 R310). -/
def condTrue (p : Psr) : Cond → Bool
  | .always => true
  | .never => false
  | .ne => !p.z
  | .e => p.z
  | .g => !(p.z || (p.n ^^ p.v))
  | .le => p.z || (p.n ^^ p.v)
  | .ge => !(p.n ^^ p.v)
  | .l => p.n ^^ p.v
  | .gu => !(p.c || p.z)
  | .leu => p.c || p.z
  | .cc => !p.c
  | .cs => p.c
  | .pos => !p.n
  | .neg => p.n
  | .vc => !p.v
  | .vs => p.v

/-- FSR.fcc as relations (10_state R39): which of E, L, G, U a floating-point condition holds for. -/
structure FCond where
  e : Bool
  l : Bool
  g : Bool
  u : Bool
  deriving DecidableEq, Repr

/-- `fcond_true(cond, FSR.fcc)` (30 R311). -/
def fcondTrue (fcc : BitVec 2) (c : FCond) : Bool :=
  if fcc = 0 then c.e else if fcc = 1 then c.l else if fcc = 2 then c.g else c.u

end Sys2Proof.Machine
end

