-- ==== Sys2Proof/Machine/Logic.lean ====
section
/-! DEFINITION. Logical, shift, SETHI and NOP instructions (41 R400 to R417). -/

namespace Sys2Proof.Machine

/-- Shape of a register operation: `r[rd] <- f a b`. -/
def intOp (s : State) (rd rs1 : RegNum) (op2 : RegImm) (f : Word → Word → Word) : Result :=
  checked s [] <| withOperands s rs1 op2 fun s1 a b => .next (advance (writeR s1 rd (f a b)))

/-- Shape of a register operation that writes icc: `res <- f a b; r[rd] <- res; icc <- x a b res`. -/
def intOpCc (s : State) (rd rs1 : RegNum) (op2 : RegImm) (f : Word → Word → Word) (x : Word → Word → Word → Icc) : Result :=
  checked s [] <| withOperands s rs1 op2 fun s1 a b => .next (advance (setIcc (writeR s1 rd (f a b)) (x a b (f a b))))

/-- Shape of a shift: `r[rd] <- f a n`, n = b[4:0] (41 section 4). -/
def shiftOp (s : State) (rd rs1 : RegNum) (cnt : ShiftArg) (f : Word → BitVec 5 → Word) : Result :=
  checked s [] <| withShift s rs1 cnt fun s1 a n => .next (advance (writeR s1 rd (f a n)))

/-- AND (41 R403). -/
def execAnd (rd rs1 : RegNum) (op2 : RegImm) (s : State) : Result := intOp s rd rs1 op2 fun a b => a &&& b

/-- ANDcc (41 R404). -/
def execAndcc (rd rs1 : RegNum) (op2 : RegImm) (s : State) : Result :=
  intOpCc s rd rs1 op2 (fun a b => a &&& b) fun _ _ res => iccLogic res

/-- ANDN (41 R405). -/
def execAndn (rd rs1 : RegNum) (op2 : RegImm) (s : State) : Result := intOp s rd rs1 op2 fun a b => a &&& ~~~b

/-- ANDNcc (41 R406). -/
def execAndncc (rd rs1 : RegNum) (op2 : RegImm) (s : State) : Result :=
  intOpCc s rd rs1 op2 (fun a b => a &&& ~~~b) fun _ _ res => iccLogic res

/-- OR (41 R407). -/
def execOr (rd rs1 : RegNum) (op2 : RegImm) (s : State) : Result := intOp s rd rs1 op2 fun a b => a ||| b

/-- ORcc (41 R408). -/
def execOrcc (rd rs1 : RegNum) (op2 : RegImm) (s : State) : Result :=
  intOpCc s rd rs1 op2 (fun a b => a ||| b) fun _ _ res => iccLogic res

/-- ORN (41 R409). -/
def execOrn (rd rs1 : RegNum) (op2 : RegImm) (s : State) : Result := intOp s rd rs1 op2 fun a b => a ||| ~~~b

/-- ORNcc (41 R410). -/
def execOrncc (rd rs1 : RegNum) (op2 : RegImm) (s : State) : Result :=
  intOpCc s rd rs1 op2 (fun a b => a ||| ~~~b) fun _ _ res => iccLogic res

/-- XOR (41 R411). -/
def execXor (rd rs1 : RegNum) (op2 : RegImm) (s : State) : Result := intOp s rd rs1 op2 fun a b => a ^^^ b

/-- XORcc (41 R412). -/
def execXorcc (rd rs1 : RegNum) (op2 : RegImm) (s : State) : Result :=
  intOpCc s rd rs1 op2 (fun a b => a ^^^ b) fun _ _ res => iccLogic res

/-- XNOR (41 R413). -/
def execXnor (rd rs1 : RegNum) (op2 : RegImm) (s : State) : Result := intOp s rd rs1 op2 fun a b => a ^^^ ~~~b

/-- XNORcc (41 R414). -/
def execXnorcc (rd rs1 : RegNum) (op2 : RegImm) (s : State) : Result :=
  intOpCc s rd rs1 op2 (fun a b => a ^^^ ~~~b) fun _ _ res => iccLogic res

/-- SLL (41 R415). -/
def execSll (rd rs1 : RegNum) (cnt : ShiftArg) (s : State) : Result := shiftOp s rd rs1 cnt fun a n => a <<< n.toNat

/-- SRL (41 R416). -/
def execSrl (rd rs1 : RegNum) (cnt : ShiftArg) (s : State) : Result := shiftOp s rd rs1 cnt fun a n => a >>> n.toNat

/-- SRA (41 R417). -/
def execSra (rd rs1 : RegNum) (cnt : ShiftArg) (s : State) : Result := shiftOp s rd rs1 cnt fun a n => a.sshiftRight n.toNat

/-- SETHI (41 R400). -/
def execSethi (rd : RegNum) (imm22 : BitVec 22) (s : State) : Result := checked s [] <| .next (advance (writeR s rd (imm22 ++ 0#10)))

/-- NOP (41 R401). -/
def execNop (s : State) : Result := checked s [] <| .next (advance s)

end Sys2Proof.Machine
end

