-- ==== Sys2Proof/Machine/Arith.lean ====
section
/-! DEFINITION. Add, subtract and tagged instructions (41 R418 to R429). -/

namespace Sys2Proof.Machine

/-- Shape of a tagged operation that traps: `tag_overflow` leaves r[rd] and icc (41 R423, R429). -/
def taggedTrapOp (s : State) (rd rs1 : RegNum) (op2 : RegImm) (f : Word → Word → Word) (ev : Word → Word → Word → Bool)
    (x : Word → Word → Word → Icc) : Result :=
  checked s [] <| withOperands s rs1 op2 fun s1 a b =>
    if ev a b (f a b) then raise s1 ttTagOverflow
    else .next (advance (setIcc (writeR s1 rd (f a b)) (x a b (f a b))))

/-- ADD (41 R418). -/
def execAdd (rd rs1 : RegNum) (op2 : RegImm) (s : State) : Result := intOp s rd rs1 op2 fun a b => a + b

/-- ADDcc (41 R419). -/
def execAddcc (rd rs1 : RegNum) (op2 : RegImm) (s : State) : Result :=
  intOpCc s rd rs1 op2 (fun a b => a + b) fun a b res => iccAdd a b false res

/-- ADDX (41 R420). -/
def execAddx (rd rs1 : RegNum) (op2 : RegImm) (s : State) : Result := intOp s rd rs1 op2 fun a b => a + b + carryWord s.psr.c

/-- ADDXcc (41 R421). -/
def execAddxcc (rd rs1 : RegNum) (op2 : RegImm) (s : State) : Result :=
  intOpCc s rd rs1 op2 (fun a b => a + b + carryWord s.psr.c) fun a b res => iccAdd a b s.psr.c res

/-- SUB (41 R424). -/
def execSub (rd rs1 : RegNum) (op2 : RegImm) (s : State) : Result := intOp s rd rs1 op2 fun a b => a - b

/-- SUBcc (41 R425). -/
def execSubcc (rd rs1 : RegNum) (op2 : RegImm) (s : State) : Result :=
  intOpCc s rd rs1 op2 (fun a b => a - b) fun a b res => iccSub a b false res

/-- SUBX (41 R426). -/
def execSubx (rd rs1 : RegNum) (op2 : RegImm) (s : State) : Result := intOp s rd rs1 op2 fun a b => a - b - carryWord s.psr.c

/-- SUBXcc (41 R427). -/
def execSubxcc (rd rs1 : RegNum) (op2 : RegImm) (s : State) : Result :=
  intOpCc s rd rs1 op2 (fun a b => a - b - carryWord s.psr.c) fun a b res => iccSub a b s.psr.c res

/-- TADDcc (41 R422). -/
def execTaddcc (rd rs1 : RegNum) (op2 : RegImm) (s : State) : Result :=
  intOpCc s rd rs1 op2 (fun a b => a + b) fun a b res => { iccAdd a b false res with v := tagevAdd a b res }

/-- TSUBcc (41 R428). -/
def execTsubcc (rd rs1 : RegNum) (op2 : RegImm) (s : State) : Result :=
  intOpCc s rd rs1 op2 (fun a b => a - b) fun a b res => { iccSub a b false res with v := tagevSub a b res }

/-- TADDccTV (41 R423). -/
def execTaddcctv (rd rs1 : RegNum) (op2 : RegImm) (s : State) : Result :=
  taggedTrapOp s rd rs1 op2 (fun a b => a + b) tagevAdd fun a b res => iccAdd a b false res

/-- TSUBccTV (41 R429). -/
def execTsubcctv (rd rs1 : RegNum) (op2 : RegImm) (s : State) : Result :=
  taggedTrapOp s rd rs1 op2 (fun a b => a - b) tagevSub fun a b res => iccSub a b false res

end Sys2Proof.Machine
end

