-- ==== Sys2Proof/Machine/MulDiv.lean ====
section
/-! DEFINITION. Multiply step, multiply and divide (41 R430 to R438). -/

namespace Sys2Proof.Machine

/-- The first operand of a multiply step: (N xor V) ++ a[31:1] (41 R430). -/
def mulsccOp1 (p : Psr) (a : Word) : Word := b1 (p.n ^^ p.v) ++ a.extractLsb' 1 31

/-- MULScc (41 R430). -/
def execMulscc (rd rs1 : RegNum) (op2 : RegImm) (s : State) : Result :=
  checked s [] <| withOperands s rs1 op2 fun s1 a b =>
    let o1 := mulsccOp1 s.psr a
    let o2 := if bit s.y 0 then b else 0
    let s2 := setIcc (writeR s1 rd (o1 + o2)) (iccAdd o1 o2 false (o1 + o2))
    .next (advance { s2 with y := a.extractLsb' 0 1 ++ s.y.extractLsb' 1 31 })

/-- The 64-bit products (41 R431, R432). -/
def umulProduct (a b : Word) : BitVec 64 := a.setWidth 64 * b.setWidth 64
def smulProduct (a b : Word) : BitVec 64 := a.signExtend 64 * b.signExtend 64

/-- Y and r[rd] take the two halves of a product (41 R431). -/
def putProduct (s : State) (rd : RegNum) (p : BitVec 64) : State :=
  { writeR s rd (p.extractLsb' 0 32) with y := p.extractLsb' 32 32 }

/-- Shape of a multiply, without and with icc from the low word (41 R431 to R434). -/
def mulOp (s : State) (rd rs1 : RegNum) (op2 : RegImm) (f : Word → Word → BitVec 64) : Result :=
  checked s [] <| withOperands s rs1 op2 fun s1 a b => .next (advance (putProduct s1 rd (f a b)))
def mulOpCc (s : State) (rd rs1 : RegNum) (op2 : RegImm) (f : Word → Word → BitVec 64) : Result :=
  checked s [] <| withOperands s rs1 op2 fun s1 a b =>
    .next (advance (setIcc (putProduct s1 rd (f a b)) (iccLogic ((f a b).extractLsb' 0 32))))

/-- UMUL (41 R431). -/
def execUmul (rd rs1 : RegNum) (op2 : RegImm) (s : State) : Result := mulOp s rd rs1 op2 umulProduct

/-- SMUL (41 R432). -/
def execSmul (rd rs1 : RegNum) (op2 : RegImm) (s : State) : Result := mulOp s rd rs1 op2 smulProduct

/-- UMULcc (41 R433). -/
def execUmulcc (rd rs1 : RegNum) (op2 : RegImm) (s : State) : Result := mulOpCc s rd rs1 op2 umulProduct

/-- SMULcc (41 R434). -/
def execSmulcc (rd rs1 : RegNum) (op2 : RegImm) (s : State) : Result := mulOpCc s rd rs1 op2 smulProduct

/-- The saturated quotient of an unsigned divide, and whether it overflowed (41 R435). -/
def udivResult (y a b : Word) : Word × Bool :=
  let q := (y ++ a : BitVec 64).toNat / b.toNat
  if 2 ^ 32 ≤ q then (0xFFFFFFFF#32, true) else (BitVec.ofNat 32 q, false)

/-- The saturated quotient of a signed divide, truncated toward zero, and whether it overflowed (41 R436): the
truncated quotient is tested, a choice of the spec (92 D20; log entry 53). -/
def sdivResult (y a b : Word) : Word × Bool :=
  let q := ((y ++ a : BitVec 64).toInt).tdiv b.toInt
  if 2 ^ 31 ≤ q then (0x7FFFFFFF#32, true)
  else if q < -(2 ^ 31) then (0x80000000#32, true)
  else (BitVec.ofInt 32 q, false)

/-- icc of a divide (41 R437, R438). -/
def iccDiv (r : Word × Bool) : Icc := { n := r.1.msb, z := r.1 = 0, v := r.2, c := false }

/-- Shape of a divide, without and with icc (41 R435 to R438). -/
def divOp (s : State) (rd rs1 : RegNum) (op2 : RegImm) (f : Word → Word → Word → Word × Bool) : Result :=
  checked s [] <| withOperands s rs1 op2 fun s1 a b =>
    if b = 0 then raise s1 ttDivisionByZero else .next (advance (writeR s1 rd (f s.y a b).1))
def divOpCc (s : State) (rd rs1 : RegNum) (op2 : RegImm) (f : Word → Word → Word → Word × Bool) : Result :=
  checked s [] <| withOperands s rs1 op2 fun s1 a b =>
    if b = 0 then raise s1 ttDivisionByZero else .next (advance (setIcc (writeR s1 rd (f s.y a b).1) (iccDiv (f s.y a b))))

/-- UDIV (41 R435). -/
def execUdiv (rd rs1 : RegNum) (op2 : RegImm) (s : State) : Result := divOp s rd rs1 op2 udivResult

/-- SDIV (41 R436). -/
def execSdiv (rd rs1 : RegNum) (op2 : RegImm) (s : State) : Result := divOp s rd rs1 op2 sdivResult

/-- UDIVcc (41 R437). -/
def execUdivcc (rd rs1 : RegNum) (op2 : RegImm) (s : State) : Result := divOpCc s rd rs1 op2 udivResult

/-- SDIVcc (41 R438). -/
def execSdivcc (rd rs1 : RegNum) (op2 : RegImm) (s : State) : Result := divOpCc s rd rs1 op2 sdivResult

end Sys2Proof.Machine
end

