-- ==== Sys2Proof/Machine/Branch.lean ====
section
/-! DEFINITION. Branches on integer condition codes (42 R473). -/

namespace Sys2Proof.Machine

/-- The four outcomes of a branch (42 R470, R473): `taken`, and whether the condition is "always". -/
def branch (s : State) (always taken a : Bool) (disp22 : BitVec 22) : State :=
  let s1 := if taken then jump s (branchTarget s.pc disp22) else advance s
  if a && (always || !taken) then annulNext s1 else s1

/-- Shape of Bicc (42 R473). -/
def branchIcc (s : State) (c : Cond) (a : Bool) (disp22 : BitVec 22) : Result :=
  checked s [] <| .next (branch s (c = .always) (condTrue s.psr c) a disp22)

/-- BA (42 R473, 30 R310). -/
def execBa (a : Bool) (disp22 : BitVec 22) (s : State) : Result := branchIcc s .always a disp22

/-- BN (42 R473, 30 R310). -/
def execBn (a : Bool) (disp22 : BitVec 22) (s : State) : Result := branchIcc s .never a disp22

/-- BNE (42 R473, 30 R310). -/
def execBne (a : Bool) (disp22 : BitVec 22) (s : State) : Result := branchIcc s .ne a disp22

/-- BE (42 R473, 30 R310). -/
def execBe (a : Bool) (disp22 : BitVec 22) (s : State) : Result := branchIcc s .e a disp22

/-- BG (42 R473, 30 R310). -/
def execBg (a : Bool) (disp22 : BitVec 22) (s : State) : Result := branchIcc s .g a disp22

/-- BLE (42 R473, 30 R310). -/
def execBle (a : Bool) (disp22 : BitVec 22) (s : State) : Result := branchIcc s .le a disp22

/-- BGE (42 R473, 30 R310). -/
def execBge (a : Bool) (disp22 : BitVec 22) (s : State) : Result := branchIcc s .ge a disp22

/-- BL (42 R473, 30 R310). -/
def execBl (a : Bool) (disp22 : BitVec 22) (s : State) : Result := branchIcc s .l a disp22

/-- BGU (42 R473, 30 R310). -/
def execBgu (a : Bool) (disp22 : BitVec 22) (s : State) : Result := branchIcc s .gu a disp22

/-- BLEU (42 R473, 30 R310). -/
def execBleu (a : Bool) (disp22 : BitVec 22) (s : State) : Result := branchIcc s .leu a disp22

/-- BCC (42 R473, 30 R310). -/
def execBcc (a : Bool) (disp22 : BitVec 22) (s : State) : Result := branchIcc s .cc a disp22

/-- BCS (42 R473, 30 R310). -/
def execBcs (a : Bool) (disp22 : BitVec 22) (s : State) : Result := branchIcc s .cs a disp22

/-- BPOS (42 R473, 30 R310). -/
def execBpos (a : Bool) (disp22 : BitVec 22) (s : State) : Result := branchIcc s .pos a disp22

/-- BNEG (42 R473, 30 R310). -/
def execBneg (a : Bool) (disp22 : BitVec 22) (s : State) : Result := branchIcc s .neg a disp22

/-- BVC (42 R473, 30 R310). -/
def execBvc (a : Bool) (disp22 : BitVec 22) (s : State) : Result := branchIcc s .vc a disp22

/-- BVS (42 R473, 30 R310). -/
def execBvs (a : Bool) (disp22 : BitVec 22) (s : State) : Result := branchIcc s .vs a disp22

end Sys2Proof.Machine
end

