-- ==== Sys2Proof/Machine/FBranch.lean ====
section
/-! DEFINITION. Branches on floating-point condition codes (42 R474). -/

namespace Sys2Proof.Machine

/-- Shape of FBfcc (42 R474). -/
def branchFcc (s : State) (always : Bool) (c : FCond) (a : Bool) (disp22 : BitVec 22) : Result :=
  checked s [(!s.psr.ef, ttFpDisabled)] <| .next (branch s always (fcondTrue s.fsr.fcc c) a disp22)

/-- FBA (42 R474, 30 R311). -/
def execFba (a : Bool) (disp22 : BitVec 22) (s : State) : Result :=
  branchFcc s true { e := true, l := true, g := true, u := true } a disp22

/-- FBN (42 R474, 30 R311). -/
def execFbn (a : Bool) (disp22 : BitVec 22) (s : State) : Result :=
  branchFcc s false { e := false, l := false, g := false, u := false } a disp22

/-- FBU (42 R474, 30 R311). -/
def execFbu (a : Bool) (disp22 : BitVec 22) (s : State) : Result :=
  branchFcc s false { e := false, l := false, g := false, u := true } a disp22

/-- FBG (42 R474, 30 R311). -/
def execFbg (a : Bool) (disp22 : BitVec 22) (s : State) : Result :=
  branchFcc s false { e := false, l := false, g := true, u := false } a disp22

/-- FBUG (42 R474, 30 R311). -/
def execFbug (a : Bool) (disp22 : BitVec 22) (s : State) : Result :=
  branchFcc s false { e := false, l := false, g := true, u := true } a disp22

/-- FBL (42 R474, 30 R311). -/
def execFbl (a : Bool) (disp22 : BitVec 22) (s : State) : Result :=
  branchFcc s false { e := false, l := true, g := false, u := false } a disp22

/-- FBUL (42 R474, 30 R311). -/
def execFbul (a : Bool) (disp22 : BitVec 22) (s : State) : Result :=
  branchFcc s false { e := false, l := true, g := false, u := true } a disp22

/-- FBLG (42 R474, 30 R311). -/
def execFblg (a : Bool) (disp22 : BitVec 22) (s : State) : Result :=
  branchFcc s false { e := false, l := true, g := true, u := false } a disp22

/-- FBNE (42 R474, 30 R311). -/
def execFbne (a : Bool) (disp22 : BitVec 22) (s : State) : Result :=
  branchFcc s false { e := false, l := true, g := true, u := true } a disp22

/-- FBE (42 R474, 30 R311). -/
def execFbe (a : Bool) (disp22 : BitVec 22) (s : State) : Result :=
  branchFcc s false { e := true, l := false, g := false, u := false } a disp22

/-- FBUE (42 R474, 30 R311). -/
def execFbue (a : Bool) (disp22 : BitVec 22) (s : State) : Result :=
  branchFcc s false { e := true, l := false, g := false, u := true } a disp22

/-- FBGE (42 R474, 30 R311). -/
def execFbge (a : Bool) (disp22 : BitVec 22) (s : State) : Result :=
  branchFcc s false { e := true, l := false, g := true, u := false } a disp22

/-- FBUGE (42 R474, 30 R311). -/
def execFbuge (a : Bool) (disp22 : BitVec 22) (s : State) : Result :=
  branchFcc s false { e := true, l := false, g := true, u := true } a disp22

/-- FBLE (42 R474, 30 R311). -/
def execFble (a : Bool) (disp22 : BitVec 22) (s : State) : Result :=
  branchFcc s false { e := true, l := true, g := false, u := false } a disp22

/-- FBULE (42 R474, 30 R311). -/
def execFbule (a : Bool) (disp22 : BitVec 22) (s : State) : Result :=
  branchFcc s false { e := true, l := true, g := false, u := true } a disp22

/-- FBO (42 R474, 30 R311). -/
def execFbo (a : Bool) (disp22 : BitVec 22) (s : State) : Result :=
  branchFcc s false { e := true, l := true, g := true, u := false } a disp22

end Sys2Proof.Machine
end

