-- ==== Sys2Proof/Machine/Control.lean ====
section
/-! DEFINITION. SAVE, RESTORE, CALL, JMPL and RETT (42 R471, R472, R476 to R478). -/

namespace Sys2Proof.Machine

/-- Window `w` is marked invalid (10_state R28). -/
def windowInvalid (s : State) (w : BitVec 3) : Bool := s.wim.getLsbD w.toNat

/-- Shape of SAVE and RESTORE: sources in the old window, `r[rd]` in the new one (42 R471, R472). -/
def windowOp (s : State) (rd rs1 : RegNum) (op2 : RegImm) (w : BitVec 3) (tt : BitVec 8) : Result :=
  checked s [] <|
    if windowInvalid s w then raise s tt
    else withOperands s rs1 op2 fun s1 a b => .next (advance (writeR { s1 with psr := { s1.psr with cwp := w } } rd (a + b)))

/-- SAVE (42 R471). -/
def execSave (rd rs1 : RegNum) (op2 : RegImm) (s : State) : Result := windowOp s rd rs1 op2 (s.psr.cwp - 1) ttWindowOverflow

/-- RESTORE (42 R472). -/
def execRestore (rd rs1 : RegNum) (op2 : RegImm) (s : State) : Result := windowOp s rd rs1 op2 (s.psr.cwp + 1) ttWindowUnderflow

/-- CALL (42 R476). -/
def execCall (disp30 : BitVec 30) (s : State) : Result :=
  checked s [] <| .next (jump (writeR s 15 s.pc) (callTarget s.pc disp30))

/-- Address `a` is a multiple of 2, 4 or 8 (20_memory R202). -/
def aligned (a : Word) (n : Nat) : Bool := a &&& BitVec.ofNat 32 (n - 1) = 0

/-- JMPL (42 R477). -/
def execJmpl (rd rs1 : RegNum) (op2 : RegImm) (s : State) : Result :=
  checked s [] <| withAddress s rs1 op2 fun s1 target =>
    if !aligned target 4 then raise s1 ttNotAligned else .next (jump (writeR s1 rd s.pc) target)

/-- RETT (42 R478). -/
def execRett (rs1 : RegNum) (op2 : RegImm) (s : State) : Result :=
  if !s.psr.et && !s.psr.s then rettError s ttPrivileged
  else checked s [(s.psr.et && !s.psr.s, ttPrivileged), (s.psr.et, ttIllegal)] <|
    if windowInvalid s (s.psr.cwp + 1) then rettError s ttWindowUnderflow
    else withAddress s rs1 op2 fun s1 target =>
      if !aligned target 4 then rettError s1 ttNotAligned
      else .next (jump { s1 with psr := s1.psr.returned } target)

end Sys2Proof.Machine
end

