-- ==== Sys2Proof/Machine/Ticc.lean ====
section
/-! DEFINITION. Software traps (42 R479). -/

namespace Sys2Proof.Machine

/-- Shape of Ticc (42 R479). -/
def trapOn (s : State) (c : Cond) (rs1 : RegNum) (arg : TrapArg) : Result :=
  checked s [] <|
    if condTrue s.psr c then withTrapNumber s rs1 arg fun s1 n => raise s1 (1#1 ++ n) else .next (advance s)

/-- TA (42 R479, 30 R310). -/
def execTa (rs1 : RegNum) (arg : TrapArg) (s : State) : Result := trapOn s .always rs1 arg

/-- TN (42 R479, 30 R310). -/
def execTn (rs1 : RegNum) (arg : TrapArg) (s : State) : Result := trapOn s .never rs1 arg

/-- TNE (42 R479, 30 R310). -/
def execTne (rs1 : RegNum) (arg : TrapArg) (s : State) : Result := trapOn s .ne rs1 arg

/-- TE (42 R479, 30 R310). -/
def execTe (rs1 : RegNum) (arg : TrapArg) (s : State) : Result := trapOn s .e rs1 arg

/-- TG (42 R479, 30 R310). -/
def execTg (rs1 : RegNum) (arg : TrapArg) (s : State) : Result := trapOn s .g rs1 arg

/-- TLE (42 R479, 30 R310). -/
def execTle (rs1 : RegNum) (arg : TrapArg) (s : State) : Result := trapOn s .le rs1 arg

/-- TGE (42 R479, 30 R310). -/
def execTge (rs1 : RegNum) (arg : TrapArg) (s : State) : Result := trapOn s .ge rs1 arg

/-- TL (42 R479, 30 R310). -/
def execTl (rs1 : RegNum) (arg : TrapArg) (s : State) : Result := trapOn s .l rs1 arg

/-- TGU (42 R479, 30 R310). -/
def execTgu (rs1 : RegNum) (arg : TrapArg) (s : State) : Result := trapOn s .gu rs1 arg

/-- TLEU (42 R479, 30 R310). -/
def execTleu (rs1 : RegNum) (arg : TrapArg) (s : State) : Result := trapOn s .leu rs1 arg

/-- TCC (42 R479, 30 R310). -/
def execTcc (rs1 : RegNum) (arg : TrapArg) (s : State) : Result := trapOn s .cc rs1 arg

/-- TCS (42 R479, 30 R310). -/
def execTcs (rs1 : RegNum) (arg : TrapArg) (s : State) : Result := trapOn s .cs rs1 arg

/-- TPOS (42 R479, 30 R310). -/
def execTpos (rs1 : RegNum) (arg : TrapArg) (s : State) : Result := trapOn s .pos rs1 arg

/-- TNEG (42 R479, 30 R310). -/
def execTneg (rs1 : RegNum) (arg : TrapArg) (s : State) : Result := trapOn s .neg rs1 arg

/-- TVC (42 R479, 30 R310). -/
def execTvc (rs1 : RegNum) (arg : TrapArg) (s : State) : Result := trapOn s .vc rs1 arg

/-- TVS (42 R479, 30 R310). -/
def execTvs (rs1 : RegNum) (arg : TrapArg) (s : State) : Result := trapOn s .vs rs1 arg

end Sys2Proof.Machine
end

