-- ==== Sys2Proof/Machine/StateRegs.lean ====
section
/-! DEFINITION. Reads and writes of the state registers (43 R520 to R530). -/

namespace Sys2Proof.Machine

/-- Shape of a privileged read of a state register (43 R520). -/
def readPrivileged (s : State) (rd : RegNum) (v : Word) : Result :=
  checked s [(!s.psr.s, ttPrivileged)] <| .next (advance (writeR s rd v))

/-- Shape of a privileged write of `r[rs1] xor operand2` (43 R520). -/
def writePrivileged (s : State) (rs1 : RegNum) (op2 : RegImm) (f : State → Word → State) : Result :=
  checked s [(!s.psr.s, ttPrivileged)] <| withOperands s rs1 op2 fun s1 a b => .next (advance (f s1 (a ^^^ b)))

/-- RDY (43 R521). -/
def execRdy (rd : RegNum) (s : State) : Result := checked s [] <| .next (advance (writeR s rd s.y))

/-- RDPSR (43 R522). -/
def execRdpsr (rd : RegNum) (s : State) : Result := readPrivileged s rd (psrWord s.psr)

/-- Checks of RDASR and WRASR on ASR `n` (43 R523, R528; 92 D29, log entries 25 and 53). -/
def asrChecks (s : State) (n : RegNum) : List (Bool × BitVec 8) :=
  [(asrImplemented n && Config.asrPrivileged && !s.psr.s, ttPrivileged), (!asrImplemented n, ttIllegal)]

/-- RDASR (43 R523). -/
def execRdasr (rd n : RegNum) (s : State) : Result := checked s (asrChecks s n) <| .next (advance (writeR s rd (asrRead s n)))

/-- RDWIM (43 R524). -/
def execRdwim (rd : RegNum) (s : State) : Result := readPrivileged s rd (s.wim.setWidth 32)

/-- RDTBR (43 R525). -/
def execRdtbr (rd : RegNum) (s : State) : Result := readPrivileged s rd (tbrWord s.tba s.tt)

/-- The operands of a WRPSR are readable and select a window that does not exist (43 R526). -/
def psrIllegal (s : State) (rs1 : RegNum) (op2 : RegImm) : Bool :=
  let bad (v : Word) : Bool := !(v.extractLsb' 3 2 = 0)
  match readR s rs1, op2 with
  | some (a, _), .imm i => bad (a ^^^ sext13 i)
  | some (a, s1), .reg rs2 =>
    match readR s1 rs2 with
    | some (b, _) => bad (a ^^^ b)
    | none => false
  | none, _ => false

/-- WRPSR (43 R526). The operands are read, and a single error in them corrected, before an illegal window is seen (20_memory R260). -/
def execWrpsr (rs1 : RegNum) (op2 : RegImm) (s : State) : Result :=
  if !s.psr.s then raise s ttPrivileged
  else if psrIllegal s rs1 op2 then withOperands s rs1 op2 fun s1 _ _ => raise s1 ttIllegal
  else checked s [] <| withOperands s rs1 op2 fun s1 a b => .next (advance { s1 with psr := psrWritten s1.psr (a ^^^ b) })

/-- WRY (43 R527). -/
def execWry (rs1 : RegNum) (op2 : RegImm) (s : State) : Result :=
  checked s [] <| withOperands s rs1 op2 fun s1 a b => .next (advance { s1 with y := a ^^^ b })

/-- WRASR (43 R528). -/
def execWrasr (n rs1 : RegNum) (op2 : RegImm) (s : State) : Result :=
  checked s (asrChecks s n) <| withOperands s rs1 op2 fun s1 a b => .next (advance (asrWrite s1 n (a ^^^ b)))

/-- WRWIM (43 R529). -/
def execWrwim (rs1 : RegNum) (op2 : RegImm) (s : State) : Result :=
  writePrivileged s rs1 op2 fun t v => { t with wim := v.extractLsb' 0 8 }

/-- WRTBR (43 R530). -/
def execWrtbr (rs1 : RegNum) (op2 : RegImm) (s : State) : Result :=
  writePrivileged s rs1 op2 fun t v => { t with tba := v.extractLsb' 12 20 }

end Sys2Proof.Machine
end

