-- ==== Sys2Proof/Machine/Misc.lean ====
section
/-! DEFINITION. UNIMP, STBAR, FLUSH and the multiply-accumulate encodings (43 R531 to R537). -/

namespace Sys2Proof.Machine

/-- UNIMP (43 R535). -/
def execUnimp (_const22 : BitVec 22) (s : State) : Result := raise s ttIllegal

/-- STBAR does nothing (43 R536). -/
def execStbar (s : State) : Result := checked s [] <| .next (advance s)

/-- FLUSH flushes both caches (43 R537, 20_memory R239). DESIGN CHOICE: an uncorrectable error in `r[rs1]` or `r[rs2]` raises
register_hardware_error as 60 R633 says of every register read, though R537 and 92 D28 give FLUSH no trap (log entry 38). -/
def execFlush (rs1 : RegNum) (op2 : RegImm) (s : State) : Result :=
  checked s [] <| withAddress s rs1 op2 fun s1 _ => .next (advance (flushCache (flushCache s1 .icache) .dcache))

/-- What the multiply-accumulate encodings do (43 R531, parameter MAC_ENCODINGS). -/
def macEncoding (s : State) : Result :=
  match Config.macEncodings with
  | .refuse => .refused .macEncoding
  | .illegal => raise s ttIllegal

/-- MAC_3E (43 R531). -/
def execMac3e (_rd _rs1 : RegNum) (_op2 : RegImm) (s : State) : Result := macEncoding s

/-- MAC_3F (43 R531). -/
def execMac3f (_rd _rs1 : RegNum) (_op2 : RegImm) (s : State) : Result := macEncoding s

end Sys2Proof.Machine
end

