-- ==== Sys2Proof/Machine/Coproc.lean ====
section
/-! DEFINITION. Coprocessor instructions (30 R321, 42 R475, 43 R538). -/

namespace Sys2Proof.Machine

/-- A coprocessor instruction: there is no coprocessor (30 R321, 60 R628). -/
def noCoprocessor (s : State) : Result := raise s ttCpDisabled

/-- CBccc (42 R475). -/
def execCbccc (_a : Bool) (_cond : BitVec 4) (_disp22 : BitVec 22) (s : State) : Result := noCoprocessor s

/-- CPop1 (43 R538). -/
def execCpop1 (_rd _rs1 : RegNum) (_opc : BitVec 9) (_rs2 : RegNum) (s : State) : Result := noCoprocessor s

/-- CPop2 (43 R538). -/
def execCpop2 (_rd _rs1 : RegNum) (_opc : BitVec 9) (_rs2 : RegNum) (s : State) : Result := noCoprocessor s

/-- LDC (30 R321, 40 R377). -/
def execLdc (_rd _rs1 : RegNum) (_op2 : RegImm) (s : State) : Result := noCoprocessor s

/-- LDCSR (30 R321, 40 R377). -/
def execLdcsr (_rd _rs1 : RegNum) (_op2 : RegImm) (s : State) : Result := noCoprocessor s

/-- LDDC (30 R321, 40 R377). -/
def execLddc (_rd _rs1 : RegNum) (_op2 : RegImm) (s : State) : Result := noCoprocessor s

/-- STC (30 R321, 40 R377). -/
def execStc (_rd _rs1 : RegNum) (_op2 : RegImm) (s : State) : Result := noCoprocessor s

/-- STCSR (30 R321, 40 R377). -/
def execStcsr (_rd _rs1 : RegNum) (_op2 : RegImm) (s : State) : Result := noCoprocessor s

/-- STDC (30 R321, 40 R377). -/
def execStdc (_rd _rs1 : RegNum) (_op2 : RegImm) (s : State) : Result := noCoprocessor s

/-- STDCQ is privileged first (30 R321). -/
def execStdcq (_rd _rs1 : RegNum) (_op2 : RegImm) (s : State) : Result :=
  if !s.psr.s then raise s ttPrivileged else noCoprocessor s

end Sys2Proof.Machine
end

