-- ==== Sys2Proof/Machine/LoadStore.lean ====
section
/-! DEFINITION. Integer loads, stores and atomics (40 R353 to R358, R365 to R368, R373, R375). -/

namespace Sys2Proof.Machine

/-- The check of the alignment of an access (40 R351). -/
def withAligned (s : State) (a : Word) (n : Nat) (k : Result) : Result := if aligned a n then k else raise s ttNotAligned

/-- Shape of a load (40 R353 to R357). -/
def loadOp (s : State) (rd rs1 : RegNum) (op2 : RegImm) (sz : Size) (ext : Word → Word) : Result :=
  checked s [] <| withAccess s rs1 op2 true false fun s1 a =>
    withAligned s1 a sz.bytes <|
      withLoad s1 .normal a sz fun s2 v => .next (advance (writeR s2 rd (ext v)))

/-- Sign extension of a byte and of a halfword (40 R353, R354). -/
def sextByte (v : Word) : Word := (v.extractLsb' 0 8).signExtend 32
def sextHalf (v : Word) : Word := (v.extractLsb' 0 16).signExtend 32

/-- Both words of a doubleword, the lower address first (20_memory R203). -/
def withLoadPair (s : State) (use : CacheUse) (a : Word) (k : State → Word → Word → Result) : Result :=
  withLoad s use a .dword fun s1 hi => withLoad s1 use (a + 4) .dword fun s2 lo => k s2 hi lo
def withStorePair (s : State) (a : Word) (hi lo : Word) (k : State → Result) : Result :=
  withStore s a .dword hi fun s1 => withStore s1 (a + 4) .dword lo k

/-- Both registers of a doubleword (40 R358). -/
def writePair (s : State) (rd : RegNum) (hi lo : Word) : State := writeR (writeR s rd hi) (rd + 1) lo

/-- `rd` is odd. -/
def oddReg (n : RegNum) : Bool := n.getLsbD 0

/-- Shape of a store of the low bytes of `r[rd]` (40 R365 to R367). -/
def storeOp (s : State) (rd rs1 : RegNum) (op2 : RegImm) (sz : Size) (low : Word → Word) : Result :=
  checked s [] <| withAccess s rs1 op2 false true fun s1 a =>
    withR s1 rd fun s2 v => withAligned s2 a sz.bytes <|
      withStore s2 a sz (low v) fun s3 => .next (advance s3)

/-- The low byte and the low halfword of a register (40 R365, R366). -/
def lowByte (v : Word) : Word := v &&& 0xFF#32
def lowHalf (v : Word) : Word := v &&& 0xFFFF#32

/-- LDSB (40 R353). -/
def execLdsb (rd rs1 : RegNum) (op2 : RegImm) (s : State) : Result := loadOp s rd rs1 op2 .byte sextByte

/-- LDSH (40 R354). -/
def execLdsh (rd rs1 : RegNum) (op2 : RegImm) (s : State) : Result := loadOp s rd rs1 op2 .half sextHalf

/-- LDUB (40 R355). -/
def execLdub (rd rs1 : RegNum) (op2 : RegImm) (s : State) : Result := loadOp s rd rs1 op2 .byte lowByte

/-- LDUH (40 R356). -/
def execLduh (rd rs1 : RegNum) (op2 : RegImm) (s : State) : Result := loadOp s rd rs1 op2 .half lowHalf

/-- LD (40 R357). -/
def execLd (rd rs1 : RegNum) (op2 : RegImm) (s : State) : Result := loadOp s rd rs1 op2 .word id

/-- LDD (40 R358). -/
def execLdd (rd rs1 : RegNum) (op2 : RegImm) (s : State) : Result :=
  checked s [(oddReg rd, ttIllegal)] <| withAccess s rs1 op2 true false fun s1 a =>
    withAligned s1 a 8 <|
      withLoadPair s1 .normal a fun s2 hi lo => .next (advance (writePair s2 rd hi lo))

/-- STB (40 R365). -/
def execStb (rd rs1 : RegNum) (op2 : RegImm) (s : State) : Result := storeOp s rd rs1 op2 .byte lowByte

/-- STH (40 R366). -/
def execSth (rd rs1 : RegNum) (op2 : RegImm) (s : State) : Result := storeOp s rd rs1 op2 .half lowHalf

/-- ST (40 R367). -/
def execSt (rd rs1 : RegNum) (op2 : RegImm) (s : State) : Result := storeOp s rd rs1 op2 .word id

/-- STD (40 R368). -/
def execStd (rd rs1 : RegNum) (op2 : RegImm) (s : State) : Result :=
  checked s [(oddReg rd, ttIllegal)] <| withAccess s rs1 op2 false true fun s1 a =>
    withR s1 rd fun s2 hi => withR s2 (rd + 1) fun s3 lo => withAligned s3 a 8 <|
      withStorePair s3 a hi lo fun s4 => .next (advance s4)

/-- LDSTUB (40 R373). -/
def execLdstub (rd rs1 : RegNum) (op2 : RegImm) (s : State) : Result :=
  checked s [] <| withAccess s rs1 op2 true true fun s1 a =>
    withLoad s1 .normal a .byte fun s2 v =>
      withStore s2 a .byte 0xFF#32 fun s3 => .next (advance (writeR s3 rd (lowByte v)))

/-- SWAP (40 R375). -/
def execSwap (rd rs1 : RegNum) (op2 : RegImm) (s : State) : Result :=
  checked s [] <| withAccess s rs1 op2 true true fun s1 a =>
    withR s1 rd fun s2 v => withAligned s2 a 4 <|
      withLoad s2 .normal a .word fun s3 w => withStore s3 a .word v fun s4 => .next (advance (writeR s4 rd w))

end Sys2Proof.Machine
end

