-- ==== Sys2Proof/Machine/AltSpace.lean ====
section
/-! DEFINITION. Alternate-space loads, stores and atomics (40 R359 to R364, R369 to R372, R374, R376). -/

namespace Sys2Proof.Machine

/-- What an address space identifier selects by its low four bits (20_memory R200, R205; 40 R352). -/
inductive AsiSpace where
  | memory (use : CacheUse)
  | flush (c : CacheId)
  | diagnostic (c : CacheId) (isTag : Bool)
  deriving DecidableEq, Repr

/-- The space of an ASI (20_memory R205). -/
def asiSpace (asi : BitVec 8) : AsiSpace :=
  match (asi.extractLsb' 0 4).toNat with
  | 0 => .memory .forceAllocate
  | 1 => .memory .forceAllocate
  | 2 => .memory .forceAllocate
  | 3 => .memory .forceAllocate
  | 4 => .memory .forceUpdate
  | 5 => .flush .icache
  | 6 => .flush .dcache
  | 7 => .memory .forceUpdate
  | 12 => .diagnostic .icache true
  | 13 => .diagnostic .icache false
  | 14 => .diagnostic .dcache true
  | 15 => .diagnostic .dcache false
  | _ => .memory .normal

/-- The i = 1 form is illegal (40 R351). -/
def AltArg.illegal : AltArg → Bool
  | .reg _ _ => false
  | .imm _ => true

/-- The alternate-space checks, then the space and the effective address with its data watchpoints (40 R350, R351). `odd` is the odd-rd
check of the doubleword forms. -/
def withAlternate (s : State) (odd : Bool) (rs1 : RegNum) (alt : AltArg) (isLoad isStore : Bool)
    (k : State → AsiSpace → Word → Result) : Result :=
  checked s [(!s.psr.s, ttPrivileged), (AltArg.illegal alt || odd, ttIllegal)] <|
    match alt with
    | .reg asi rs2 => withAccess s rs1 (.reg rs2) isLoad isStore fun s1 a => k s1 (asiSpace asi) a
    | .imm _ => raise s ttIllegal

/-- Shape of an alternate-space load of less than a doubleword (40 R352, R359 to R363). -/
def loadAltOp (s : State) (rd rs1 : RegNum) (alt : AltArg) (sz : Size) (ext : Word → Word) : Result :=
  withAlternate s false rs1 alt true false fun s1 space a =>
    withAligned s1 a sz.bytes <|
      match space with
      | .memory use => withLoad s1 use a sz fun s2 v => .next (advance (writeR s2 rd (ext v)))
      | .flush c => .next (advance (flushCache s1 c))
      | .diagnostic c t =>
        if sz = .word then let x := diagRead s1 c t a; .next (advance (writeR x.2 rd x.1)) else .refused .cacheDiagnosticWidth

/-- Shape of an alternate-space store of less than a doubleword (40 R352, R369 to R371). -/
def storeAltOp (s : State) (rd rs1 : RegNum) (alt : AltArg) (sz : Size) (low : Word → Word) : Result :=
  withAlternate s false rs1 alt false true fun s1 space a =>
    withR s1 rd fun s2 v => withAligned s2 a sz.bytes <|
      match space with
      | .memory _ => withStore s2 a sz (low v) fun s3 => .next (advance s3)
      | .flush c => .next (advance (flushCache s2 c))
      | .diagnostic c t => if sz = .word then .next (advance (diagWrite s2 c t a v)) else .refused .cacheDiagnosticWidth

/-- A read of memory past the cache, for SWAPA and LDSTUBA with a flush ASI (40 R374, R376: `PhysRead`). -/
def withPhysRead (s : State) (a : Word) (sz : Size) (k : State → Word → Result) : Result :=
  match busRead s .iu false a sz with
  | .ok v s1 => k s1 v
  | .err s1 => raise s1 ttDataAccess
  | .refuse r => .refused r

/-- LDSBA (40 R359). -/
def execLdsba (rd rs1 : RegNum) (alt : AltArg) (s : State) : Result := loadAltOp s rd rs1 alt .byte sextByte

/-- LDSHA (40 R360). -/
def execLdsha (rd rs1 : RegNum) (alt : AltArg) (s : State) : Result := loadAltOp s rd rs1 alt .half sextHalf

/-- LDUBA (40 R361). -/
def execLduba (rd rs1 : RegNum) (alt : AltArg) (s : State) : Result := loadAltOp s rd rs1 alt .byte lowByte

/-- LDUHA (40 R362). -/
def execLduha (rd rs1 : RegNum) (alt : AltArg) (s : State) : Result := loadAltOp s rd rs1 alt .half lowHalf

/-- LDA (40 R363). -/
def execLda (rd rs1 : RegNum) (alt : AltArg) (s : State) : Result := loadAltOp s rd rs1 alt .word id

/-- LDDA (40 R364). -/
def execLdda (rd rs1 : RegNum) (alt : AltArg) (s : State) : Result :=
  withAlternate s (oddReg rd) rs1 alt true false fun s1 space a =>
    withAligned s1 a 8 <|
      match space with
      | .memory use => withLoadPair s1 use a fun s2 hi lo => .next (advance (writePair s2 rd hi lo))
      | .flush c => .next (advance (flushCache s1 c))
      | .diagnostic c t =>
        let x := diagRead s1 c t a
        let y := diagRead x.2 c t (a + 4)
        .next (advance (writePair y.2 rd x.1 y.1))

/-- STBA (40 R369). -/
def execStba (rd rs1 : RegNum) (alt : AltArg) (s : State) : Result := storeAltOp s rd rs1 alt .byte lowByte

/-- STHA (40 R370). -/
def execStha (rd rs1 : RegNum) (alt : AltArg) (s : State) : Result := storeAltOp s rd rs1 alt .half lowHalf

/-- STA (40 R371). -/
def execSta (rd rs1 : RegNum) (alt : AltArg) (s : State) : Result := storeAltOp s rd rs1 alt .word id

/-- STDA (40 R372). -/
def execStda (rd rs1 : RegNum) (alt : AltArg) (s : State) : Result :=
  withAlternate s (oddReg rd) rs1 alt false true fun s1 space a =>
    withR s1 rd fun s2 hi => withR s2 (rd + 1) fun s3 lo => withAligned s3 a 8 <|
      match space with
      | .memory _ => withStorePair s3 a hi lo fun s4 => .next (advance s4)
      | .flush c => .next (advance (flushCache s3 c))
      | .diagnostic c t => .next (advance (diagWrite (diagWrite s3 c t a hi) c t (a + 4) lo))

/-- LDSTUBA (40 R374). -/
def execLdstuba (rd rs1 : RegNum) (alt : AltArg) (s : State) : Result :=
  withAlternate s false rs1 alt true true fun s1 space a =>
    match space with
      | .memory use =>
        withLoad s1 use a .byte fun s2 v =>
          withStore s2 a .byte 0xFF#32 fun s3 => .next (advance (writeR s3 rd (lowByte v)))
      | .flush c => withPhysRead (flushCache s1 c) a .byte fun s2 v => .next (advance (writeR s2 rd (lowByte v)))
      | .diagnostic _ _ => .refused .cacheDiagnosticWidth

/-- SWAPA (40 R376). DESIGN CHOICE: r[rd] is read with ASI 5 and 6 too, where its value has no use (log entry 38). -/
def execSwapa (rd rs1 : RegNum) (alt : AltArg) (s : State) : Result :=
  withAlternate s false rs1 alt true true fun s1 space a =>
    withR s1 rd fun s2 v => withAligned s2 a 4 <|
      match space with
      | .memory use => withLoad s2 use a .word fun s3 w => withStore s3 a .word v fun s4 => .next (advance (writeR s4 rd w))
      | .flush c => withPhysRead (flushCache s2 c) a .word fun s3 w => .next (advance (writeR s3 rd w))
      | .diagnostic c t => let x := diagRead s2 c t a; .next (advance (writeR (diagWrite x.2 c t a v) rd x.1))

end Sys2Proof.Machine
end

