-- ==== Sys2Proof/Machine/FpLoadStore.lean ====
section
/-! DEFINITION. Floating-point loads and stores (44 R562 to R569). -/

namespace Sys2Proof.Machine

/-- The check of every floating-point instruction (44 R560). -/
def fpChecks (s : State) : List (Bool × BitVec 8) := [(!s.psr.ef, ttFpDisabled)]

/-- LDF (44 R562). -/
def execLdf (rd rs1 : RegNum) (op2 : RegImm) (s : State) : Result :=
  checked s (fpChecks s) <| withAccess s rs1 op2 true false fun s1 a =>
    withAligned s1 a 4 <|
      withLoad s1 .normal a .word fun s2 v => .next (advance (writeF s2 rd v))

/-- LDFSR (44 R563). -/
def execLdfsr (rs1 : RegNum) (op2 : RegImm) (s : State) : Result :=
  checked s (fpChecks s) <| withAccess s rs1 op2 true false fun s1 a =>
    withAligned s1 a 4 <|
      withLoad s1 .normal a .word fun s2 v => .next (advance { s2 with fsr := fsrLoaded s2.fsr v })

/-- ftt of invalid_fp_register, unimplemented_FPop and the others (10_state R38). -/
def fttIeee : BitVec 3 := 1
def fttUnfinished : BitVec 3 := 2
def fttUnimplemented : BitVec 3 := 3
def fttSequence : BitVec 3 := 4
def fttInvalidRegister : BitVec 3 := 6

/-- Both f registers of a double (10_state R36). -/
def writeFPair (s : State) (rd : RegNum) (hi lo : Word) : State := writeF (writeF s rd hi) (rd + 1) lo

/-- LDDF (44 R564). -/
def execLddf (rd rs1 : RegNum) (op2 : RegImm) (s : State) : Result :=
  checked s (fpChecks s) <| withAccess s rs1 op2 true false fun s1 a =>
    withAligned s1 a 8 <|
      if oddReg rd then raiseFp s1 fttInvalidRegister
      else withLoadPair s1 .normal a fun s2 hi lo => .next (advance (writeFPair s2 rd hi lo))

/-- STF (44 R566). -/
def execStf (rd rs1 : RegNum) (op2 : RegImm) (s : State) : Result :=
  checked s (fpChecks s) <| withAccess s rs1 op2 false true fun s1 a =>
    withF s1 rd fun s2 v => withAligned s2 a 4 <|
      withStore s2 a .word v fun s3 => .next (advance s3)

/-- STFSR clears ftt after storing (44 R568). -/
def execStfsr (rs1 : RegNum) (op2 : RegImm) (s : State) : Result :=
  checked s (fpChecks s) <| withAccess s rs1 op2 false true fun s1 a =>
    withAligned s1 a 4 <|
      withStore s1 a .word (fsrWord s1.fsr) fun s2 => .next (advance { s2 with fsr := { s2.fsr with ftt := 0 } })

/-- STDFQ: there is no queue (44 R569). -/
def execStdfq (_rs1 : RegNum) (_op2 : RegImm) (s : State) : Result :=
  checked s [(!s.psr.s, ttPrivileged), (!s.psr.ef, ttFpDisabled)] <| raiseFp s fttSequence

/-- STDF (44 R567). -/
def execStdf (rd rs1 : RegNum) (op2 : RegImm) (s : State) : Result :=
  checked s (fpChecks s) <| withAccess s rs1 op2 false true fun s1 a =>
    if oddReg rd then withAligned s1 a 8 <| raiseFp s1 fttInvalidRegister
    else withF s1 rd fun s2 hi => withF s2 (rd + 1) fun s3 lo => withAligned s3 a 8 <|
      withStorePair s3 a hi lo fun s4 => .next (advance s4)

end Sys2Proof.Machine
end

