-- ==== Sys2Proof/Machine/SoftFloat.lean ====
section
/-! DEFINITION. IEEE 754 single and double arithmetic on exact integers: unpack, compute exactly, round once (44 R570, R571 to R594,
R597, R598; formats and NaN results log entry 31). -/

namespace Sys2Proof.Machine

/-- A binary format: exponent and fraction widths (44 R570). -/
structure FpFormat where
  eb : Nat
  mb : Nat
  deriving DecidableEq, Repr

def single : FpFormat := { eb := 8, mb := 23 }
def double : FpFormat := { eb := 11, mb := 52 }

/-- Exponent bias. -/
def FpFormat.bias (t : FpFormat) : Nat := 2 ^ (t.eb - 1) - 1

/-- An operand: a NaN with its fraction, an infinity, or (-1)^sign * m * 2^e. -/
inductive Fp where
  | nan (signaling sign : Bool) (frac : Nat)
  | inf (sign : Bool)
  | fin (sign : Bool) (m : Nat) (e : Int)
  deriving DecidableEq, Repr

/-- The value of the bits `w` of format `t` (44 R570, R598). -/
def unpack (t : FpFormat) (w : Nat) : Fp :=
  let sign := w.testBit (t.eb + t.mb)
  let ex := (w >>> t.mb) % 2 ^ t.eb
  let frac := w % 2 ^ t.mb
  if ex = 2 ^ t.eb - 1 then (if frac = 0 then .inf sign else .nan (!frac.testBit (t.mb - 1)) sign frac)
  else if ex = 0 then .fin sign frac (1 - (t.bias : Int) - t.mb)
  else .fin sign (2 ^ t.mb + frac) ((ex : Int) - t.bias - t.mb)

/-- The bits are those of a subnormal number (44 R597). -/
def isSubnormal (t : FpFormat) (w : Nat) : Bool := (w >>> t.mb) % 2 ^ t.eb = 0 && w % 2 ^ t.mb ≠ 0

/-- A result: its bits, the exceptions nv, of, dz, nx, whether the unrounded result is below the smallest normal number, and whether
the rounded one is subnormal. -/
structure FpResult where
  bits : Nat
  nv : Bool := false
  ovf : Bool := false
  dz : Bool := false
  nx : Bool := false
  tiny : Bool := false
  sub : Bool := false
  deriving DecidableEq, Repr

/-- The sign bit of a format. -/
def signBit (t : FpFormat) (sign : Bool) : Nat := if sign then 2 ^ (t.eb + t.mb) else 0

/-- Bits of infinity, and of the largest finite number. -/
def infBits (t : FpFormat) (sign : Bool) : Nat := signBit t sign + (2 ^ t.eb - 1) * 2 ^ t.mb
def maxBits (t : FpFormat) (sign : Bool) : Nat := infBits t sign - 1

/-- Away from zero, in direction `rm`, for a fraction of the last place: `rest` out of `2 * half`, with a sticky bit below
(10_state R37). -/
def roundsUp (rm : BitVec 2) (sign odd : Bool) (rest half : Nat) (sticky : Bool) : Bool :=
  let inexact := rest ≠ 0 || sticky
  if rm = 0 then decide (half < rest) || (rest = half && (sticky || odd))
  else if rm = 1 then false
  else if rm = 2 then inexact && !sign
  else inexact && sign

/-- Overflow goes to infinity in direction `rm` (44 R570). -/
def overflowToInf (rm : BitVec 2) (sign : Bool) : Bool := rm = 0 || (rm = 2 && !sign) || (rm = 3 && sign)

/-- Round the magnitude `m * 2^e`, plus something below one unit of `m` if `sticky`, to format `t` (44 R570). -/
def roundFp (t : FpFormat) (rm : BitVec 2) (sign : Bool) (m : Nat) (e : Int) (sticky : Bool) : FpResult :=
  if m = 0 then { bits := signBit t sign }
  else
    let emin : Int := 1 - (t.bias : Int)
    let top : Int := (Nat.log2 m : Int) + e
    let q : Int := max (top - t.mb) (emin - t.mb)
    let down := (q - e).toNat
    let kept := if q ≤ e then m * 2 ^ (e - q).toNat else m >>> down
    let rest := if q ≤ e then 0 else m % 2 ^ down
    let half := if q ≤ e then 1 else 2 ^ (down - 1)
    let nx := rest ≠ 0 || sticky
    let n := kept + (roundsUp rm sign (kept % 2 = 1) rest half sticky).toNat
    let mag := (q - (emin - t.mb)).toNat * 2 ^ t.mb + n
    let tiny : Bool := decide (top < emin)
    if (2 ^ t.eb - 1) * 2 ^ t.mb ≤ mag then
      { bits := if overflowToInf rm sign then infBits t sign else maxBits t sign, ovf := true, nx := true, tiny := tiny }
    else { bits := signBit t sign + mag, nx := nx, tiny := tiny, sub := decide (mag < 2 ^ t.mb) && mag ≠ 0 }

/-- The quiet NaN that an operation with these NaN operands delivers in format `t` (44 R598, parameter FP_NAN_RESULT). -/
def deliveredNan (t : FpFormat) (operands : List Config.Nan) : Nat :=
  let r := Config.nanResult t.mb operands
  infBits t r.sign + (r.frac ||| 2 ^ (t.mb - 1))

/-- An invalid operation with no NaN operand (44 R598). -/
def invalid (t : FpFormat) : FpResult := { bits := deliveredNan t [], nv := true }

/-- A NaN operand of format `t`. -/
def Fp.asNan (t : FpFormat) : Fp → Option Config.Nan
  | .nan _ sign frac => some { mb := t.mb, sign := sign, frac := frac }
  | _ => none

def Fp.isSignaling : Fp → Bool
  | .nan sig _ _ => sig
  | _ => false
def Fp.isNan : Fp → Bool
  | .nan _ _ _ => true
  | _ => false

/-- The result of an operation on the operands `xs`, rs2's first, if one of them is a NaN; `k` is given other values (44 R598). -/
def withNan (src dst : FpFormat) (xs : List Fp) (k : FpResult) : FpResult :=
  if xs.any Fp.isNan then { bits := deliveredNan dst (xs.filterMap (Fp.asNan src)), nv := xs.any Fp.isSignaling } else k

/-- One operand, and two: rs1's `x` and rs2's `y`. -/
def withNan1 (src dst : FpFormat) (x : Fp) (k : FpResult) : FpResult := withNan src dst [x] k
def withNan2 (src dst : FpFormat) (x y : Fp) (k : FpResult) : FpResult := withNan src dst [y, x] k

/-- A signed mantissa. -/
def signed (sign : Bool) (m : Nat) : Int := if sign then -(m : Int) else m

/-- Sum (44 R582 to R585). -/
def fpAdd (t : FpFormat) (rm : BitVec 2) (x y : Fp) : FpResult :=
  withNan2 t t x y <|
    match x, y with
    | .inf sx, .inf sy => if sx = sy then { bits := infBits t sx } else invalid t
    | .inf sx, _ => { bits := infBits t sx }
    | _, .inf sy => { bits := infBits t sy }
    | .fin sx mx ex, .fin sy my ey =>
      let e := min ex ey
      let sum := signed sx (mx * 2 ^ (ex - e).toNat) + signed sy (my * 2 ^ (ey - e).toNat)
      let sign := if sum = 0 then (if mx = 0 && my = 0 && sx = sy then sx else rm = 3) else decide (sum < 0)
      roundFp t rm sign sum.natAbs e false
    | _, _ => invalid t

/-- The operand with its sign changed, for a difference. -/
def Fp.neg : Fp → Fp
  | .nan sig sign frac => .nan sig sign frac
  | .inf sign => .inf (!sign)
  | .fin sign m e => .fin (!sign) m e

/-- Product; the destination may be wider than the source (44 R586 to R588). -/
def fpMul (src dst : FpFormat) (rm : BitVec 2) (x y : Fp) : FpResult :=
  withNan2 src dst x y <|
    match x, y with
    | .inf sx, .inf sy => { bits := infBits dst (sx ^^ sy) }
    | .inf sx, .fin sy m _ => if m = 0 then invalid dst else { bits := infBits dst (sx ^^ sy) }
    | .fin sx m _, .inf sy => if m = 0 then invalid dst else { bits := infBits dst (sx ^^ sy) }
    | .fin sx mx ex, .fin sy my ey => roundFp dst rm (sx ^^ sy) (mx * my) (ex + ey) false
    | _, _ => invalid dst

/-- Quotient (44 R589, R590). -/
def fpDiv (t : FpFormat) (rm : BitVec 2) (x y : Fp) : FpResult :=
  withNan2 t t x y <|
    match x, y with
    | .inf _, .inf _ => invalid t
    | .inf sx, .fin sy _ _ => { bits := infBits t (sx ^^ sy) }
    | .fin sx _ _, .inf sy => { bits := signBit t (sx ^^ sy) }
    | .fin sx mx ex, .fin sy my ey =>
      if my = 0 then (if mx = 0 then invalid t else { bits := infBits t (sx ^^ sy), dz := true })
      else
        let k := t.mb + 3 + Nat.log2 my
        let n := mx * 2 ^ k
        roundFp t rm (sx ^^ sy) (n / my) (ex - ey - k) (n % my ≠ 0)
    | _, _ => invalid t

/-- The integer square root of `n`, bit by bit from bit `b - 1` down. -/
def isqrt (n : Nat) : Nat → Nat → Nat
  | 0, r => r
  | b + 1, r => if (r + 2 ^ b) * (r + 2 ^ b) ≤ n then isqrt n b (r + 2 ^ b) else isqrt n b r

/-- Square root (44 R580, R581). -/
def fpSqrt (t : FpFormat) (rm : BitVec 2) (x : Fp) : FpResult :=
  withNan1 t t x <|
    match x with
    | .inf sign => if sign then invalid t else { bits := infBits t false }
    | .fin sign m e =>
      if m = 0 then { bits := signBit t sign }
      else if sign then invalid t
      else
        let k := 2 * t.mb + 8 + (e.natAbs % 2)
        let n := m * 2 ^ k
        let r := isqrt n 90 0
        roundFp t rm false r ((e - k) / 2) (r * r ≠ n)
    | .nan _ _ _ => invalid t

/-- Conversion between the formats (44 R575, R576). -/
def fpConvert (src dst : FpFormat) (rm : BitVec 2) (x : Fp) : FpResult :=
  withNan1 src dst x <|
    match x with
    | .inf sign => { bits := infBits dst sign }
    | .fin sign m e => roundFp dst rm sign m e false
    | .nan _ _ _ => invalid dst

/-- Integer to floating point (44 R571, R572). -/
def fpOfInt (t : FpFormat) (rm : BitVec 2) (w : Word) : FpResult :=
  roundFp t rm w.msb (w.toInt).natAbs 0 false

/-- The integer delivered by an invalid conversion, by sign (44 R573; log entry 31). -/
def invalidInt (sign : Bool) : FpResult := { bits := if sign then 0x80000000 else 0x7FFFFFFF, nv := true }

/-- Floating point to integer, toward zero (44 R573, R574). DESIGN CHOICE: outside the range of an integer nv is set alone, without nx
(log entry 31). -/
def fpToInt (x : Fp) : FpResult :=
  match x with
  | .nan _ sign _ => invalidInt sign
  | .inf sign => invalidInt sign
  | .fin sign m e =>
    let n := if 0 ≤ e then m * 2 ^ e.toNat else m >>> (-e).toNat
    let nx := if 0 ≤ e then false else m % 2 ^ (-e).toNat ≠ 0
    let v := signed sign n
    if v < -(2 ^ 31) || 2 ^ 31 ≤ v then invalidInt sign else { bits := (BitVec.ofInt 32 v).toNat, nx := nx }

/-- The order of two operands that are not NaN: as signed magnitudes of their bits, so +0 equals -0 (44 section 9). -/
def fpKey (t : FpFormat) (w : Nat) : Int := signed (w.testBit (t.eb + t.mb)) (w % 2 ^ (t.eb + t.mb))

/-- `relation` (10_state R39): the new fcc. -/
def fpRelation (t : FpFormat) (a b : Nat) : BitVec 2 :=
  if (unpack t a).isNan || (unpack t b).isNan then 3
  else if fpKey t a = fpKey t b then 0
  else if fpKey t a < fpKey t b then 1
  else 2

/-- The exception set nv, of, uf, dz, nx: underflow is tiny and inexact, or tiny alone while UFM = 1 (10_state R40). -/
def FpResult.exceptions (r : FpResult) (tem : BitVec 5) : BitVec 5 :=
  b1 r.nv ++ b1 r.ovf ++ b1 (r.tiny && (r.nx || tem.getLsbD 2)) ++ b1 r.dz ++ b1 r.nx

end Sys2Proof.Machine
end

