-- ==== Sys2Proof/Machine/FpOps.lean ====
section
/-! DEFINITION. Floating-point operate instructions (44 R565, R571 to R595). -/

namespace Sys2Proof.Machine

/-- The end of an FPop that produces the exceptions `x` (44 R565): a trap if one is enabled, else cexc, aexc, ftt and the result. -/
def fpComplete (s : State) (x : BitVec 5) (put : State → State) : Result :=
  if s.fsr.tem &&& x ≠ 0 then
    .next (trapState s (fun t => { t with fsr := { t.fsr with cexc := x, ftt := fttIeee } }) ttFpException)
  else .next (advance (put { s with fsr := { s.fsr with cexc := x, aexc := s.fsr.aexc ||| x, ftt := 0 } }))

/-- The end of an arithmetic FPop, under parameter FP_SUBNORMAL (44 R597): `sub` says a source operand is subnormal. -/
def fpArith (s : State) (sub : Bool) (r : FpResult) (put : FpResult → State → State) : Result :=
  if Config.fpSubnormal = .unfinished && (sub || r.sub) then raiseFp s fttUnfinished
  else fpComplete s (r.exceptions s.fsr.tem) (put r)

/-- Results in one and in two f registers. -/
def putS (rd : RegNum) (r : FpResult) (s : State) : State := writeF s rd (BitVec.ofNat 32 r.bits)
def putD (rd : RegNum) (r : FpResult) (s : State) : State :=
  writeFPair s rd (BitVec.ofNat 32 (r.bits >>> 32)) (BitVec.ofNat 32 r.bits)

/-- An FPop: fp_disabled, then invalid_fp_register if a double operand is odd (44 R560, R561; always: 92 D35, log
entry 53). -/
def fpop (s : State) (odd : Bool) (k : Result) : Result :=
  checked s (fpChecks s) <| if odd then raiseFp s fttInvalidRegister else k

/-- With a single or a double operand, as a number of 32 or 64 bits. -/
def withS (s : State) (n : RegNum) (k : State → Nat → Result) : Result := withF s n fun s1 w => k s1 w.toNat
def withD (s : State) (n : RegNum) (k : State → Nat → Result) : Result :=
  withF s n fun s1 hi => withF s1 (n + 1) fun s2 lo => k s2 (hi.toNat * 2 ^ 32 + lo.toNat)

/-- Shapes of the two-operand operations on singles and on doubles (44 R582 to R590). -/
def fpS2 (s : State) (rd rs1 rs2 : RegNum) (f : BitVec 2 → Fp → Fp → FpResult) : Result :=
  fpop s false <| withS s rs1 fun s1 a => withS s1 rs2 fun s2 b =>
    fpArith s2 (isSubnormal single a || isSubnormal single b) (f s.fsr.rd (unpack single a) (unpack single b)) (putS rd)
def fpD2 (s : State) (rd rs1 rs2 : RegNum) (f : BitVec 2 → Fp → Fp → FpResult) : Result :=
  fpop s (oddReg rs1 || oddReg rs2 || oddReg rd) <| withD s rs1 fun s1 a => withD s1 rs2 fun s2 b =>
    fpArith s2 (isSubnormal double a || isSubnormal double b) (f s.fsr.rd (unpack double a) (unpack double b)) (putD rd)

/-- Shape of FMOVs, FNEGs and FABSs, which never examine the value (44 section 5). -/
def fpBits (s : State) (rd rs2 : RegNum) (f : Word → Word) : Result :=
  fpop s false <| withF s rs2 fun s1 w => fpComplete s1 0 fun t => writeF t rd (f w)

/-- The comparisons: the relation and whether a NaN is invalid (44 section 9). -/
def fpCompare (s : State) (t : FpFormat) (a b : Nat) (all : Bool) : Result :=
  let x := unpack t a
  let y := unpack t b
  let nv := x.isSignaling || y.isSignaling || (all && (x.isNan || y.isNan))
  fpArith s (isSubnormal t a || isSubnormal t b) { bits := 0, nv := nv } fun _ u => { u with fsr := { u.fsr with fcc := fpRelation t a b } }
def fpCmpS (s : State) (rs1 rs2 : RegNum) (all : Bool) : Result :=
  fpop s false <| withS s rs1 fun s1 a => withS s1 rs2 fun s2 b => fpCompare s2 single a b all
def fpCmpD (s : State) (rs1 rs2 : RegNum) (all : Bool) : Result :=
  fpop s (oddReg rs1 || oddReg rs2) <| withD s rs1 fun s1 a => withD s1 rs2 fun s2 b => fpCompare s2 double a b all

/-- An FPop the FPU does not implement (44 R595). -/
def fpUnimplemented (s : State) : Result := checked s (fpChecks s) <| raiseFp s fttUnimplemented

/-- FMOVs (44 R577). -/
def execFmovs (rd rs2 : RegNum) (s : State) : Result := fpBits s rd rs2 fun w => w

/-- FNEGs (44 R578). -/
def execFnegs (rd rs2 : RegNum) (s : State) : Result := fpBits s rd rs2 fun w => w ^^^ 0x80000000#32

/-- FABSs (44 R579). -/
def execFabss (rd rs2 : RegNum) (s : State) : Result := fpBits s rd rs2 fun w => w &&& 0x7FFFFFFF#32

/-- FSQRTs (44 R580). -/
def execFsqrts (rd rs2 : RegNum) (s : State) : Result :=
  fpop s false <| withS s rs2 fun s1 a => fpArith s1 (isSubnormal single a) (fpSqrt single s.fsr.rd (unpack single a)) (putS rd)

/-- FSQRTd (44 R581). -/
def execFsqrtd (rd rs2 : RegNum) (s : State) : Result :=
  fpop s (oddReg rs2 || oddReg rd) <| withD s rs2 fun s1 a =>
    fpArith s1 (isSubnormal double a) (fpSqrt double s.fsr.rd (unpack double a)) (putD rd)

/-- FADDs (44 R582). -/
def execFadds (rd rs1 rs2 : RegNum) (s : State) : Result := fpS2 s rd rs1 rs2 (fpAdd single)

/-- FADDd (44 R583). -/
def execFaddd (rd rs1 rs2 : RegNum) (s : State) : Result := fpD2 s rd rs1 rs2 (fpAdd double)

/-- FSUBs (44 R584). -/
def execFsubs (rd rs1 rs2 : RegNum) (s : State) : Result := fpS2 s rd rs1 rs2 (fun rm x y => fpAdd single rm x y.neg)

/-- FSUBd (44 R585). -/
def execFsubd (rd rs1 rs2 : RegNum) (s : State) : Result := fpD2 s rd rs1 rs2 (fun rm x y => fpAdd double rm x y.neg)

/-- FMULs (44 R586). -/
def execFmuls (rd rs1 rs2 : RegNum) (s : State) : Result := fpS2 s rd rs1 rs2 (fpMul single single)

/-- FMULd (44 R587). -/
def execFmuld (rd rs1 rs2 : RegNum) (s : State) : Result := fpD2 s rd rs1 rs2 (fpMul double double)

/-- FDIVs (44 R589). -/
def execFdivs (rd rs1 rs2 : RegNum) (s : State) : Result := fpS2 s rd rs1 rs2 (fpDiv single)

/-- FDIVd (44 R590). -/
def execFdivd (rd rs1 rs2 : RegNum) (s : State) : Result := fpD2 s rd rs1 rs2 (fpDiv double)

/-- FsMULd (44 R588). -/
def execFsmuld (rd rs1 rs2 : RegNum) (s : State) : Result :=
  fpop s (oddReg rd) <| withS s rs1 fun s1 a => withS s1 rs2 fun s2 b =>
    fpArith s2 (isSubnormal single a || isSubnormal single b) (fpMul single double s.fsr.rd (unpack single a) (unpack single b))
      (putD rd)

/-- FiTOs (44 R571). -/
def execFitos (rd rs2 : RegNum) (s : State) : Result :=
  fpop s false <| withF s rs2 fun s1 w => fpArith s1 false (fpOfInt single s.fsr.rd w) (putS rd)

/-- FdTOs (44 R576). -/
def execFdtos (rd rs2 : RegNum) (s : State) : Result :=
  fpop s (oddReg rs2) <| withD s rs2 fun s1 a =>
    fpArith s1 (isSubnormal double a) (fpConvert double single s.fsr.rd (unpack double a)) (putS rd)

/-- FiTOd (44 R572). -/
def execFitod (rd rs2 : RegNum) (s : State) : Result :=
  fpop s (oddReg rd) <| withF s rs2 fun s1 w => fpArith s1 false (fpOfInt double s.fsr.rd w) (putD rd)

/-- FsTOd (44 R575). -/
def execFstod (rd rs2 : RegNum) (s : State) : Result :=
  fpop s (oddReg rd) <| withS s rs2 fun s1 a =>
    fpArith s1 (isSubnormal single a) (fpConvert single double s.fsr.rd (unpack single a)) (putD rd)

/-- FsTOi (44 R573). -/
def execFstoi (rd rs2 : RegNum) (s : State) : Result :=
  fpop s false <| withS s rs2 fun s1 a => fpArith s1 (isSubnormal single a) (fpToInt (unpack single a)) (putS rd)

/-- FdTOi (44 R574). -/
def execFdtoi (rd rs2 : RegNum) (s : State) : Result :=
  fpop s (oddReg rs2) <| withD s rs2 fun s1 a => fpArith s1 (isSubnormal double a) (fpToInt (unpack double a)) (putS rd)

/-- FCMPs (44 R591). -/
def execFcmps (rs1 rs2 : RegNum) (s : State) : Result := fpCmpS s rs1 rs2 false

/-- FCMPd (44 R592). -/
def execFcmpd (rs1 rs2 : RegNum) (s : State) : Result := fpCmpD s rs1 rs2 false

/-- FCMPEs (44 R593). -/
def execFcmpes (rs1 rs2 : RegNum) (s : State) : Result := fpCmpS s rs1 rs2 true

/-- FCMPEd (44 R594). -/
def execFcmped (rs1 rs2 : RegNum) (s : State) : Result := fpCmpD s rs1 rs2 true

/-- FSQRTq, a quad operation (44 R595). -/
def execFsqrtq (_rd _rs2 : RegNum) (s : State) : Result := fpUnimplemented s

/-- FADDq, a quad operation (44 R595). -/
def execFaddq (_rd _rs1 _rs2 : RegNum) (s : State) : Result := fpUnimplemented s

/-- FSUBq, a quad operation (44 R595). -/
def execFsubq (_rd _rs1 _rs2 : RegNum) (s : State) : Result := fpUnimplemented s

/-- FMULq, a quad operation (44 R595). -/
def execFmulq (_rd _rs1 _rs2 : RegNum) (s : State) : Result := fpUnimplemented s

/-- FDIVq, a quad operation (44 R595). -/
def execFdivq (_rd _rs1 _rs2 : RegNum) (s : State) : Result := fpUnimplemented s

/-- FdMULq, a quad operation (44 R595). -/
def execFdmulq (_rd _rs1 _rs2 : RegNum) (s : State) : Result := fpUnimplemented s

/-- FqTOs, a quad operation (44 R595). -/
def execFqtos (_rd _rs2 : RegNum) (s : State) : Result := fpUnimplemented s

/-- FqTOd, a quad operation (44 R595). -/
def execFqtod (_rd _rs2 : RegNum) (s : State) : Result := fpUnimplemented s

/-- FiTOq, a quad operation (44 R595). -/
def execFitoq (_rd _rs2 : RegNum) (s : State) : Result := fpUnimplemented s

/-- FsTOq, a quad operation (44 R595). -/
def execFstoq (_rd _rs2 : RegNum) (s : State) : Result := fpUnimplemented s

/-- FdTOq, a quad operation (44 R595). -/
def execFdtoq (_rd _rs2 : RegNum) (s : State) : Result := fpUnimplemented s

/-- FqTOi, a quad operation (44 R595). -/
def execFqtoi (_rd _rs2 : RegNum) (s : State) : Result := fpUnimplemented s

/-- FCMPq, a quad operation (44 R595). -/
def execFcmpq (_rs1 _rs2 : RegNum) (s : State) : Result := fpUnimplemented s

/-- FCMPEq, a quad operation (44 R595). -/
def execFcmpeq (_rs1 _rs2 : RegNum) (s : State) : Result := fpUnimplemented s

end Sys2Proof.Machine
end

