-- ==== Sys2Proof/Machine/Dispatch.lean ====
section
/-! DEFINITION. One arm per instruction. -/

namespace Sys2Proof.Machine

def exec (i : Instr) (s : State) : Host.Outcome State Fault Refusal :=
  match i with
  | .call disp30 => Sys2Proof.Machine.execCall disp30 s
  | .unimp const22 => Sys2Proof.Machine.execUnimp const22 s
  | .nop => Sys2Proof.Machine.execNop s
  | .sethi rd imm22 => Sys2Proof.Machine.execSethi rd imm22 s
  | .ba a disp22 => Sys2Proof.Machine.execBa a disp22 s
  | .bn a disp22 => Sys2Proof.Machine.execBn a disp22 s
  | .bne a disp22 => Sys2Proof.Machine.execBne a disp22 s
  | .be a disp22 => Sys2Proof.Machine.execBe a disp22 s
  | .bg a disp22 => Sys2Proof.Machine.execBg a disp22 s
  | .ble a disp22 => Sys2Proof.Machine.execBle a disp22 s
  | .bge a disp22 => Sys2Proof.Machine.execBge a disp22 s
  | .bl a disp22 => Sys2Proof.Machine.execBl a disp22 s
  | .bgu a disp22 => Sys2Proof.Machine.execBgu a disp22 s
  | .bleu a disp22 => Sys2Proof.Machine.execBleu a disp22 s
  | .bcc a disp22 => Sys2Proof.Machine.execBcc a disp22 s
  | .bcs a disp22 => Sys2Proof.Machine.execBcs a disp22 s
  | .bpos a disp22 => Sys2Proof.Machine.execBpos a disp22 s
  | .bneg a disp22 => Sys2Proof.Machine.execBneg a disp22 s
  | .bvc a disp22 => Sys2Proof.Machine.execBvc a disp22 s
  | .bvs a disp22 => Sys2Proof.Machine.execBvs a disp22 s
  | .fbn a disp22 => Sys2Proof.Machine.execFbn a disp22 s
  | .fbne a disp22 => Sys2Proof.Machine.execFbne a disp22 s
  | .fblg a disp22 => Sys2Proof.Machine.execFblg a disp22 s
  | .fbul a disp22 => Sys2Proof.Machine.execFbul a disp22 s
  | .fbl a disp22 => Sys2Proof.Machine.execFbl a disp22 s
  | .fbug a disp22 => Sys2Proof.Machine.execFbug a disp22 s
  | .fbg a disp22 => Sys2Proof.Machine.execFbg a disp22 s
  | .fbu a disp22 => Sys2Proof.Machine.execFbu a disp22 s
  | .fba a disp22 => Sys2Proof.Machine.execFba a disp22 s
  | .fbe a disp22 => Sys2Proof.Machine.execFbe a disp22 s
  | .fbue a disp22 => Sys2Proof.Machine.execFbue a disp22 s
  | .fbge a disp22 => Sys2Proof.Machine.execFbge a disp22 s
  | .fbuge a disp22 => Sys2Proof.Machine.execFbuge a disp22 s
  | .fble a disp22 => Sys2Proof.Machine.execFble a disp22 s
  | .fbule a disp22 => Sys2Proof.Machine.execFbule a disp22 s
  | .fbo a disp22 => Sys2Proof.Machine.execFbo a disp22 s
  | .cbccc a cond disp22 => Sys2Proof.Machine.execCbccc a cond disp22 s
  | .add rd rs1 op2 => Sys2Proof.Machine.execAdd rd rs1 op2 s
  | .and rd rs1 op2 => Sys2Proof.Machine.execAnd rd rs1 op2 s
  | .or rd rs1 op2 => Sys2Proof.Machine.execOr rd rs1 op2 s
  | .xor rd rs1 op2 => Sys2Proof.Machine.execXor rd rs1 op2 s
  | .sub rd rs1 op2 => Sys2Proof.Machine.execSub rd rs1 op2 s
  | .andn rd rs1 op2 => Sys2Proof.Machine.execAndn rd rs1 op2 s
  | .orn rd rs1 op2 => Sys2Proof.Machine.execOrn rd rs1 op2 s
  | .xnor rd rs1 op2 => Sys2Proof.Machine.execXnor rd rs1 op2 s
  | .addx rd rs1 op2 => Sys2Proof.Machine.execAddx rd rs1 op2 s
  | .umul rd rs1 op2 => Sys2Proof.Machine.execUmul rd rs1 op2 s
  | .smul rd rs1 op2 => Sys2Proof.Machine.execSmul rd rs1 op2 s
  | .subx rd rs1 op2 => Sys2Proof.Machine.execSubx rd rs1 op2 s
  | .udiv rd rs1 op2 => Sys2Proof.Machine.execUdiv rd rs1 op2 s
  | .sdiv rd rs1 op2 => Sys2Proof.Machine.execSdiv rd rs1 op2 s
  | .addcc rd rs1 op2 => Sys2Proof.Machine.execAddcc rd rs1 op2 s
  | .andcc rd rs1 op2 => Sys2Proof.Machine.execAndcc rd rs1 op2 s
  | .orcc rd rs1 op2 => Sys2Proof.Machine.execOrcc rd rs1 op2 s
  | .xorcc rd rs1 op2 => Sys2Proof.Machine.execXorcc rd rs1 op2 s
  | .subcc rd rs1 op2 => Sys2Proof.Machine.execSubcc rd rs1 op2 s
  | .andncc rd rs1 op2 => Sys2Proof.Machine.execAndncc rd rs1 op2 s
  | .orncc rd rs1 op2 => Sys2Proof.Machine.execOrncc rd rs1 op2 s
  | .xnorcc rd rs1 op2 => Sys2Proof.Machine.execXnorcc rd rs1 op2 s
  | .addxcc rd rs1 op2 => Sys2Proof.Machine.execAddxcc rd rs1 op2 s
  | .umulcc rd rs1 op2 => Sys2Proof.Machine.execUmulcc rd rs1 op2 s
  | .smulcc rd rs1 op2 => Sys2Proof.Machine.execSmulcc rd rs1 op2 s
  | .subxcc rd rs1 op2 => Sys2Proof.Machine.execSubxcc rd rs1 op2 s
  | .udivcc rd rs1 op2 => Sys2Proof.Machine.execUdivcc rd rs1 op2 s
  | .sdivcc rd rs1 op2 => Sys2Proof.Machine.execSdivcc rd rs1 op2 s
  | .taddcc rd rs1 op2 => Sys2Proof.Machine.execTaddcc rd rs1 op2 s
  | .tsubcc rd rs1 op2 => Sys2Proof.Machine.execTsubcc rd rs1 op2 s
  | .taddcctv rd rs1 op2 => Sys2Proof.Machine.execTaddcctv rd rs1 op2 s
  | .tsubcctv rd rs1 op2 => Sys2Proof.Machine.execTsubcctv rd rs1 op2 s
  | .mulscc rd rs1 op2 => Sys2Proof.Machine.execMulscc rd rs1 op2 s
  | .sll rd rs1 cnt => Sys2Proof.Machine.execSll rd rs1 cnt s
  | .srl rd rs1 cnt => Sys2Proof.Machine.execSrl rd rs1 cnt s
  | .sra rd rs1 cnt => Sys2Proof.Machine.execSra rd rs1 cnt s
  | .stbar => Sys2Proof.Machine.execStbar s
  | .rdy rd => Sys2Proof.Machine.execRdy rd s
  | .rdasr rd n => Sys2Proof.Machine.execRdasr rd n s
  | .rdpsr rd => Sys2Proof.Machine.execRdpsr rd s
  | .rdwim rd => Sys2Proof.Machine.execRdwim rd s
  | .rdtbr rd => Sys2Proof.Machine.execRdtbr rd s
  | .wry rs1 op2 => Sys2Proof.Machine.execWry rs1 op2 s
  | .wrasr n rs1 op2 => Sys2Proof.Machine.execWrasr n rs1 op2 s
  | .wrpsr rs1 op2 => Sys2Proof.Machine.execWrpsr rs1 op2 s
  | .wrwim rs1 op2 => Sys2Proof.Machine.execWrwim rs1 op2 s
  | .wrtbr rs1 op2 => Sys2Proof.Machine.execWrtbr rs1 op2 s
  | .fmovs rd rs2 => Sys2Proof.Machine.execFmovs rd rs2 s
  | .fnegs rd rs2 => Sys2Proof.Machine.execFnegs rd rs2 s
  | .fabss rd rs2 => Sys2Proof.Machine.execFabss rd rs2 s
  | .fsqrts rd rs2 => Sys2Proof.Machine.execFsqrts rd rs2 s
  | .fsqrtd rd rs2 => Sys2Proof.Machine.execFsqrtd rd rs2 s
  | .fadds rd rs1 rs2 => Sys2Proof.Machine.execFadds rd rs1 rs2 s
  | .faddd rd rs1 rs2 => Sys2Proof.Machine.execFaddd rd rs1 rs2 s
  | .fsubs rd rs1 rs2 => Sys2Proof.Machine.execFsubs rd rs1 rs2 s
  | .fsubd rd rs1 rs2 => Sys2Proof.Machine.execFsubd rd rs1 rs2 s
  | .fmuls rd rs1 rs2 => Sys2Proof.Machine.execFmuls rd rs1 rs2 s
  | .fmuld rd rs1 rs2 => Sys2Proof.Machine.execFmuld rd rs1 rs2 s
  | .fdivs rd rs1 rs2 => Sys2Proof.Machine.execFdivs rd rs1 rs2 s
  | .fdivd rd rs1 rs2 => Sys2Proof.Machine.execFdivd rd rs1 rs2 s
  | .fsmuld rd rs1 rs2 => Sys2Proof.Machine.execFsmuld rd rs1 rs2 s
  | .fitos rd rs2 => Sys2Proof.Machine.execFitos rd rs2 s
  | .fdtos rd rs2 => Sys2Proof.Machine.execFdtos rd rs2 s
  | .fitod rd rs2 => Sys2Proof.Machine.execFitod rd rs2 s
  | .fstod rd rs2 => Sys2Proof.Machine.execFstod rd rs2 s
  | .fstoi rd rs2 => Sys2Proof.Machine.execFstoi rd rs2 s
  | .fdtoi rd rs2 => Sys2Proof.Machine.execFdtoi rd rs2 s
  | .fsqrtq rd rs2 => Sys2Proof.Machine.execFsqrtq rd rs2 s
  | .faddq rd rs1 rs2 => Sys2Proof.Machine.execFaddq rd rs1 rs2 s
  | .fsubq rd rs1 rs2 => Sys2Proof.Machine.execFsubq rd rs1 rs2 s
  | .fmulq rd rs1 rs2 => Sys2Proof.Machine.execFmulq rd rs1 rs2 s
  | .fdivq rd rs1 rs2 => Sys2Proof.Machine.execFdivq rd rs1 rs2 s
  | .fdmulq rd rs1 rs2 => Sys2Proof.Machine.execFdmulq rd rs1 rs2 s
  | .fqtos rd rs2 => Sys2Proof.Machine.execFqtos rd rs2 s
  | .fqtod rd rs2 => Sys2Proof.Machine.execFqtod rd rs2 s
  | .fitoq rd rs2 => Sys2Proof.Machine.execFitoq rd rs2 s
  | .fstoq rd rs2 => Sys2Proof.Machine.execFstoq rd rs2 s
  | .fdtoq rd rs2 => Sys2Proof.Machine.execFdtoq rd rs2 s
  | .fqtoi rd rs2 => Sys2Proof.Machine.execFqtoi rd rs2 s
  | .fcmps rs1 rs2 => Sys2Proof.Machine.execFcmps rs1 rs2 s
  | .fcmpd rs1 rs2 => Sys2Proof.Machine.execFcmpd rs1 rs2 s
  | .fcmpes rs1 rs2 => Sys2Proof.Machine.execFcmpes rs1 rs2 s
  | .fcmped rs1 rs2 => Sys2Proof.Machine.execFcmped rs1 rs2 s
  | .fcmpq rs1 rs2 => Sys2Proof.Machine.execFcmpq rs1 rs2 s
  | .fcmpeq rs1 rs2 => Sys2Proof.Machine.execFcmpeq rs1 rs2 s
  | .cpop1 rd rs1 opc rs2 => Sys2Proof.Machine.execCpop1 rd rs1 opc rs2 s
  | .cpop2 rd rs1 opc rs2 => Sys2Proof.Machine.execCpop2 rd rs1 opc rs2 s
  | .jmpl rd rs1 op2 => Sys2Proof.Machine.execJmpl rd rs1 op2 s
  | .rett rs1 op2 => Sys2Proof.Machine.execRett rs1 op2 s
  | .ta rs1 arg => Sys2Proof.Machine.execTa rs1 arg s
  | .tn rs1 arg => Sys2Proof.Machine.execTn rs1 arg s
  | .tne rs1 arg => Sys2Proof.Machine.execTne rs1 arg s
  | .te rs1 arg => Sys2Proof.Machine.execTe rs1 arg s
  | .tg rs1 arg => Sys2Proof.Machine.execTg rs1 arg s
  | .tle rs1 arg => Sys2Proof.Machine.execTle rs1 arg s
  | .tge rs1 arg => Sys2Proof.Machine.execTge rs1 arg s
  | .tl rs1 arg => Sys2Proof.Machine.execTl rs1 arg s
  | .tgu rs1 arg => Sys2Proof.Machine.execTgu rs1 arg s
  | .tleu rs1 arg => Sys2Proof.Machine.execTleu rs1 arg s
  | .tcc rs1 arg => Sys2Proof.Machine.execTcc rs1 arg s
  | .tcs rs1 arg => Sys2Proof.Machine.execTcs rs1 arg s
  | .tpos rs1 arg => Sys2Proof.Machine.execTpos rs1 arg s
  | .tneg rs1 arg => Sys2Proof.Machine.execTneg rs1 arg s
  | .tvc rs1 arg => Sys2Proof.Machine.execTvc rs1 arg s
  | .tvs rs1 arg => Sys2Proof.Machine.execTvs rs1 arg s
  | .flush rs1 op2 => Sys2Proof.Machine.execFlush rs1 op2 s
  | .save rd rs1 op2 => Sys2Proof.Machine.execSave rd rs1 op2 s
  | .restore rd rs1 op2 => Sys2Proof.Machine.execRestore rd rs1 op2 s
  | .mac3e rd rs1 op2 => Sys2Proof.Machine.execMac3e rd rs1 op2 s
  | .mac3f rd rs1 op2 => Sys2Proof.Machine.execMac3f rd rs1 op2 s
  | .ld rd rs1 op2 => Sys2Proof.Machine.execLd rd rs1 op2 s
  | .ldub rd rs1 op2 => Sys2Proof.Machine.execLdub rd rs1 op2 s
  | .lduh rd rs1 op2 => Sys2Proof.Machine.execLduh rd rs1 op2 s
  | .ldd rd rs1 op2 => Sys2Proof.Machine.execLdd rd rs1 op2 s
  | .st rd rs1 op2 => Sys2Proof.Machine.execSt rd rs1 op2 s
  | .stb rd rs1 op2 => Sys2Proof.Machine.execStb rd rs1 op2 s
  | .sth rd rs1 op2 => Sys2Proof.Machine.execSth rd rs1 op2 s
  | .std rd rs1 op2 => Sys2Proof.Machine.execStd rd rs1 op2 s
  | .ldsb rd rs1 op2 => Sys2Proof.Machine.execLdsb rd rs1 op2 s
  | .ldsh rd rs1 op2 => Sys2Proof.Machine.execLdsh rd rs1 op2 s
  | .ldstub rd rs1 op2 => Sys2Proof.Machine.execLdstub rd rs1 op2 s
  | .swap rd rs1 op2 => Sys2Proof.Machine.execSwap rd rs1 op2 s
  | .lda rd rs1 alt => Sys2Proof.Machine.execLda rd rs1 alt s
  | .lduba rd rs1 alt => Sys2Proof.Machine.execLduba rd rs1 alt s
  | .lduha rd rs1 alt => Sys2Proof.Machine.execLduha rd rs1 alt s
  | .ldda rd rs1 alt => Sys2Proof.Machine.execLdda rd rs1 alt s
  | .sta rd rs1 alt => Sys2Proof.Machine.execSta rd rs1 alt s
  | .stba rd rs1 alt => Sys2Proof.Machine.execStba rd rs1 alt s
  | .stha rd rs1 alt => Sys2Proof.Machine.execStha rd rs1 alt s
  | .stda rd rs1 alt => Sys2Proof.Machine.execStda rd rs1 alt s
  | .ldsba rd rs1 alt => Sys2Proof.Machine.execLdsba rd rs1 alt s
  | .ldsha rd rs1 alt => Sys2Proof.Machine.execLdsha rd rs1 alt s
  | .ldstuba rd rs1 alt => Sys2Proof.Machine.execLdstuba rd rs1 alt s
  | .swapa rd rs1 alt => Sys2Proof.Machine.execSwapa rd rs1 alt s
  | .ldf rd rs1 op2 => Sys2Proof.Machine.execLdf rd rs1 op2 s
  | .ldfsr rs1 op2 => Sys2Proof.Machine.execLdfsr rs1 op2 s
  | .lddf rd rs1 op2 => Sys2Proof.Machine.execLddf rd rs1 op2 s
  | .stf rd rs1 op2 => Sys2Proof.Machine.execStf rd rs1 op2 s
  | .stfsr rs1 op2 => Sys2Proof.Machine.execStfsr rs1 op2 s
  | .stdfq rs1 op2 => Sys2Proof.Machine.execStdfq rs1 op2 s
  | .stdf rd rs1 op2 => Sys2Proof.Machine.execStdf rd rs1 op2 s
  | .ldc rd rs1 op2 => Sys2Proof.Machine.execLdc rd rs1 op2 s
  | .ldcsr rd rs1 op2 => Sys2Proof.Machine.execLdcsr rd rs1 op2 s
  | .lddc rd rs1 op2 => Sys2Proof.Machine.execLddc rd rs1 op2 s
  | .stc rd rs1 op2 => Sys2Proof.Machine.execStc rd rs1 op2 s
  | .stcsr rd rs1 op2 => Sys2Proof.Machine.execStcsr rd rs1 op2 s
  | .stdcq rd rs1 op2 => Sys2Proof.Machine.execStdcq rd rs1 op2 s
  | .stdc rd rs1 op2 => Sys2Proof.Machine.execStdc rd rs1 op2 s

end Sys2Proof.Machine
end

