-- ==== Sys2Proof/Machine/Environment.lean ====
section
/-! DEFINITION. What happens between two instructions: clocks, the events of the environment, the interrupt sources (70 R840, 60 R680
to R686, 61 R733 to R786). -/

namespace Sys2Proof.Machine

/-! ### Clocks -/

/-- The 24-bit count of a timer word, and the word with another count. -/
def count24 (w : Word) : Word := w &&& 0x00FFFFFF#32
def setCount24 (w v : Word) : Word := mergeMask w v 0x00FFFFFF#32

/-- One tick of a timer: the timer and whether it underflowed (60 R681). -/
def timerTick (t : Timer) : Timer × Bool :=
  if bit t.ctrl 0 then
    if count24 t.val = 0 then
      if bit t.ctrl 1 then ({ t with val := setCount24 t.val t.rld }, true)
      else
        ({ t with
           val := setCount24 t.val 0xFFFFFFFF#32
           ctrl := if Config.timerOneshotStops then t.ctrl &&& 0xFFFFFFFE#32 else t.ctrl }, true)
    else ({ t with val := setCount24 t.val (t.val - 1) }, false)
  else (t, false)

/-- One tick of the watchdog (60 R684). -/
def watchdogTick (d : Dev) : Dev :=
  if bit d.tim1.ctrl 4 then
    if count24 d.wdog = 0 then { d with wdogAsserted := true } else { d with wdog := setCount24 d.wdog (d.wdog - 1) }
  else d

/-- One TICK of the prescaler (60 R680 to R684). -/
def prescalerTick (d : Dev) : Dev :=
  let d0 := watchdogTick d
  let r1 := timerTick d0.tim1
  let r2 := timerTick d0.tim2
  let d1 := { d0 with tim1 := r1.1, tim2 := r2.1 }
  let d2 := if r1.2 then d1.pend 8 else d1
  if r2.2 then d2.pend 9 else d2

/-- One clock of the prescaler (60 R680). -/
def prescalerClock (d : Dev) : Dev :=
  if d.psc.extractLsb' 0 10 = 0 then prescalerTick { d with psc := mergeMask d.psc d.pscRld 0x3FF#32 }
  else { d with psc := mergeMask d.psc (d.psc - 1) 0x3FF#32 }

/-- One clock of the prescaler, the timers and the watchdog, which stop in debug mode while FT = 1 (60 R685). -/
def timersClock (s : State) : State := if s.debugMode && bit s.dsu.ctrl 3 then s else { s with dev := prescalerClock s.dev }

/-- One clock of the UARTs. -/
def uartsClock (s : State) : State := uartClock (uartClock (uartClock s .u1) .u2) .u3

/-- One clock of the time tag (61 R769). -/
def timeTagClock (s : State) : State := if s.debugMode then s else { s with dsu := { s.dsu with timeTag := s.dsu.timeTag - 1 } }

/-- `n` clocks of one device. -/
def clocks (f : State → State) : Nat → State → State
  | 0, s => s
  | n + 1, s => clocks f n (f s)

/-- The devices that run by themselves advance by `n` cycles: the model clock, then prescaler, timers and watchdog, then the UARTs (70
R840), and the time tag. -/
def advanceDevices (n : Nat) (s : State) : State :=
  clocks timeTagClock n (clocks uartsClock n (clocks timersClock n { s with clk := s.clk + n }))

/-! ### Reset while running (60 R641, 70 R801, R807) -/

/-- The bridge after a reset of the chip: in Guest mode the PCI-side registers, which RST# resets, stay (11 R91, 61 R752). -/
def pciChipReset (p : Pci) : Pci :=
  if Config.pciHostMode then Pci.reset
  else
    { Pci.reset with
      gImask := p.gImask, gIstatus := p.gIstatus, bar3 := p.bar3, bar4 := p.bar4, bar5 := p.bar5, masterEn := p.masterEn
      memoryEn := p.memoryEn }

/-- Registers take their reset values with the pins as they are; memory, the pins, the model clock and what is to come from outside stay.
A Host bridge resets the PCI bus (11 R91). -/
def warmReset (s : State) : State :=
  { State.reset with
    pci := pciChipReset s.pci
    debugMode := s.pins.dsuen && s.pins.dsubre
    dev := { Dev.reset with
      mcfg1 := mergeMask Dev.reset.mcfg1 ((s.pins.pio.extractLsb' 0 2).setWidth 32 <<< 8) 0x300#32
      mecfg1 := mergeMask Dev.reset.mecfg1 ((s.pins.pio.extractLsb' 2 1).setWidth 32 <<< 26) 0x04000000#32 }
    mem := s.mem, memFlip := s.memFlip, pins := s.pins, env := s.env, busAnswers := s.busAnswers, lines := s.lines
    out := if Config.pciHostMode then .pciBusReset :: s.out else s.out
    freeCtr := s.freeCtr, clk := s.clk }

/-! ### Events of the environment -/

def State.emit (s : State) (o : Output) : State := { s with out := o :: s.out }

/-- New pin levels: DSUBRE rising and DSUEN falling (61 R760, R762), CTSN low as a frame may wait for it (61 R723), PIO[3] rising as
the UART clock (61 R730). DESIGN CHOICE: that clock is the level the environment gives the pin, and not the latch that drives it while
IODIR[3] = 1 (log entry 48). -/
def setPins (s : State) (p : Pins) : State :=
  let old := s.pins
  let s1 := uartStart (uartStart (uartStart { s with pins := p } .u1) .u2) .u3
  let s2 := if !old.pio.getLsbD 3 && p.pio.getLsbD 3 then
      uartExternalClock (uartExternalClock (uartExternalClock s1 .u1) .u2) .u3 else s1
  if s2.debugMode then (if p.dsuen then s2 else leaveDebug s2)
  else if !old.dsubre && p.dsubre then { s2 with dsu := { s2.dsu with breakReq := true } }
  else s2

/-- The AHB address of a PCI address that hits an enabled PCI-AHB window, and whether that is the prefetchable one (61 R743). DESIGN CHOICE: the window of BAR3 comes before that of
BAR4 where both are hit (log entry 35). -/
def pciWindow (p : Pci) (a : Word) : Option (Bool × Word) :=
  let baseNp := p.addrNp &&& 0xFFFFFF00#32
  let basePf := p.addrPf &&& 0xFFFFFF00#32
  let sideNp := if Config.pciHostMode then baseNp else p.bar3
  let sidePf := if Config.pciHostMode then basePf else p.bar4
  if !Config.pciHostMode && !p.memoryEn then none
  else if bit p.addrNp 0 && (a ^^^ sideNp) &&& p.sizNp = 0 then some (false, baseNp + (a - sideNp))
  else if bit p.addrPf 0 && (a ^^^ sidePf) &&& p.sizPf = 0 then some (true, basePf + (a - sidePf))
  else none

/-- A PCI address hits BAR5, the window of the configuration space of a Guest bridge (11 R120, 61 R743). -/
def pciBar5Hit (p : Pci) (a : Word) : Bool := !Config.pciHostMode && p.memoryEn && (a ^^^ p.bar5) &&& 0xFFFFFF00#32 = 0

/-- A word of the configuration space of a Guest bridge, at an offset of whole words (11 R109 to R111, R120 to R124; offsets of the
header: log entry 47). What the spec does not describe is open. -/
def pciConfigRead (s : State) (off : BitVec 8) : Word × State :=
  let p := s.pci
  let k := off &&& 0xFC#8
  if k = 0x00 then (p.dv, s)
  else if k = 0x04 then (mergeMask s.free.1 (pciControl p) 6#32, s.free.2)
  else if k = 0x08 then (p.crev, s)
  else if k = 0x2C then (p.sub, s)
  else if k = 0x80 then (p.gImask, s)
  else if k = 0x84 then (p.gIstatus, s)
  else if k = 0x8C then (pciVersion, s)
  else if k = Config.pciBar3Offset then (p.bar3, s)
  else if k = Config.pciBar4Offset then (p.bar4, s)
  else if k = Config.pciBar5Offset then (p.bar5, s)
  else openRead s

/-- The external host sets a base address register; bits within the window read 0 (11 R120, 61 R743). DESIGN CHOICE: the base is masked
here by the size of that moment, and not again when the CPU changes PCIAHB_SIZ_NP or PCIAHB_SIZ_PF (log entry 35). -/
def pciSetBar (p : Pci) (bar : BitVec 3) (v : Word) : Pci :=
  if Config.pciHostMode then p
  else if bar = 3 then { p with bar3 := v &&& p.sizNp }
  else if bar = 4 then { p with bar4 := v &&& p.sizPf }
  else if bar = 5 then { p with bar5 := v &&& 0xFFFFFF00#32 }
  else p

/-- The external host writes a word of the configuration space of a Guest bridge: MasterEN and MemoryEN, PCI_IMASK, PCI_ISTATUS,
PCI_ICMD, a base address register (11 R108, R120 to R123; offsets of the header: log entry 47). -/
def pciConfigWrite (p : Pci) (off : BitVec 8) (v : Word) : Pci :=
  let k := off &&& 0xFC#8
  if Config.pciHostMode then p
  else if k = 0x04 then { p with masterEn := bit v 2, memoryEn := bit v 1 }
  else if k = 0x80 then { p with gImask := v &&& 0x00F00101#32 }
  else if k = 0x84 then { p with gIstatus := p.gIstatus &&& ~~~v }
  else if k = 0x88 then { p with istatus := p.istatus ||| (v &&& 0x000F0000#32) }
  else if k = Config.pciBar3Offset then pciSetBar p 3 v
  else if k = Config.pciBar4Offset then pciSetBar p 4 v
  else if k = Config.pciBar5Offset then pciSetBar p 5 v
  else p

/-- A configuration read by the external host is answered in Guest mode only (11 R120). -/
def pciHostRead (s : State) (off : BitVec 8) : State :=
  if Config.pciHostMode then s.emit (.pciAnswer none)
  else (pciConfigRead s off).2.emit (.pciAnswer (some (pciConfigRead s off).1))

/-- The bridge reads up to `n` words from the PCI address `a` on ahead, as far as the prefetchable window goes. A transfer that fails is
the last, and an error of the bus as any other (61 R743, R744). -/
def readAhead : Nat → Word → State → List Word × State
  | 0, _, s => ([], s)
  | n + 1, a, s =>
    match pciWindow s.pci a with
    | some (true, b) =>
      match busRead s .pci false (wordBase b) .word with
      | .ok v s1 => let r := readAhead n (a + 4) s1; (v :: r.1, r.2)
      | .err s1 => ([], { s1 with pci := s1.pci.report 5 })
      | .refuse _ => ([], s)
    | _ => ([], s)

/-- A word read from the bus by a PCI master, at PCI address `a` and AHB address `b` (61 R744). In the prefetchable window it replaces the
words held by `ahead` words read ahead (61 R743; log entry 54). -/
def pciBusRead (s : State) (pf : Bool) (a b : Word) (ahead : Nat) : State :=
  match busRead (if pf then { s with pci := { s.pci with heldAhb := Held.empty } } else s) .pci false b .word with
  | .ok v s1 =>
    let r := readAhead (if pf then ahead else 0) (a + 4) s1
    let h : Held := { addr := b + 4, words := r.1, since := s.clk }
    (if pf then { r.2 with pci := { r.2.pci with heldAhb := h } } else r.2).emit (.pciAnswer (some v))
  | .err s1 => { s1 with pci := s1.pci.report 5 }.emit (.pciAnswer none)
  | .refuse _ => s.emit (.pciAnswer none)

/-- A word read or write by a PCI master (61 R743, R744): a held word of the prefetchable window, a window, BAR5, or without a hit an
Abort. A write through a window drops the words held (log entry 54). DESIGN CHOICE: a write that the model refuses to the IU changes
nothing else, sets no status bit and latches no AHB error (log entry 29). -/
def pciMasterRead (s : State) (a : Word) (ahead : Nat) : State :=
  match pciWindow s.pci a with
  | none => if pciBar5Hit s.pci a then pciHostRead s (a.extractLsb' 0 8) else s.emit (.pciAnswer none)
  | some (pf, b) =>
    match (if pf then s.pci.heldAhb.word (wordBase b) else none) with
    | some v => { s with pci := { s.pci with heldAhb := s.pci.heldAhb.fetched s.clk } }.emit (.pciAnswer (some v))
    | none => pciBusRead s pf a (wordBase b) ahead
def pciMasterWrite (s : State) (a v : Word) : State :=
  match pciWindow s.pci a with
  | none =>
    if pciBar5Hit s.pci a then { s with pci := pciConfigWrite s.pci (a.extractLsb' 0 8) v } else s.emit (.pciAnswer none)
  | some (_, b) =>
    let s0 := { s with pci := { s.pci with heldAhb := Held.empty } }
    match busWrite s0 .pci (wordBase b) .word v with
    | .ok _ s1 => s1
    | .err s1 => { s1 with pci := s1.pci.report 4 }
    | .refuse _ => s0

/-- RST# of a Guest bridge (61 R752). DESIGN CHOICE: the windows drop what they hold (log entry 54). -/
def pciGuestReset (p : Pci) : Pci :=
  if Config.pciHostMode then p
  else
    let stop (d : Dma) : Dma := { d with running := false, left := 0 }
    { p with gImask := 0, gIstatus := 0, bar3 := 0, bar4 := 0, bar5 := 0, masterEn := false, memoryEn := false
             wdma := stop p.wdma, rdma := stop p.rdma, heldPci := Held.empty, heldAhb := Held.empty }

/-- A channel has moved `n` bytes (61 R747, R748). -/
def dmaAdvance (p : Pci) (ch : DmaChannel) (n : Nat) : Pci :=
  let d := p.dma ch
  let d1 := { d with pciAddr := d.pciAddr + BitVec.ofNat 32 n, ahbAddr := d.ahbAddr + BitVec.ofNat 32 n, left := d.left - n }
  let p1 := p.setDma ch d1
  if d.left ≤ n then dmaEnd p1 ch else p1

/-- The next piece of a DMA can be a whole word (61 R751). -/
def dmaWordwise (d : Dma) : Bool := d.pciAddr.extractLsb' 0 2 = 0 && d.ahbAddr.extractLsb' 0 2 = 0 && decide (d.left % 4 = 0)

/-- A write DMA moves one word, or one byte whose place on the PCI lanes is open (61 R747, R751; log entry 29). -/
def dmaWriteMove (s : State) (ok : Bool) : State :=
  let d := s.pci.wdma
  let wordwise := dmaWordwise d
  match busRead s .pci false d.ahbAddr (if wordwise then .word else .byte) with
  | .ok v s1 =>
    if !ok then { s1 with pci := dmaStop s1.pci .write 1 }
    else if wordwise then
      { s1 with pci := dmaAdvance s1.pci .write 4 }.emit (.pciWrite d.cmd d.pciAddr 4 v)
    else { s1.free.2 with pci := dmaAdvance s1.pci .write 1 }.emit (.pciWrite d.cmd d.pciAddr 1 s1.free.1)
  | .err s1 => { s1 with pci := dmaStop s1.pci .write 3 }
  | .refuse _ => { s with pci := dmaStop s.pci .write 3 }

/-- A read DMA moves one word, or one byte of open value (61 R747, R751; log entry 29). -/
def dmaReadMove (s : State) (answer : Option Word) : State :=
  let d := s.pci.rdma
  match answer with
  | none => { s with pci := dmaStop s.pci .read 1 }
  | some w =>
    let wordwise := dmaWordwise d
    let s0 := if wordwise then s else s.free.2
    let v := if wordwise then w else s.free.1 &&& 0xFF#32
    let n := if wordwise then 4 else 1
    let s1 := s0.emit (.pciRead d.cmd d.pciAddr (BitVec.ofNat 4 n))
    match busWrite s1 .pci d.ahbAddr (if wordwise then .word else .byte) v with
    | .ok _ s2 => { s2 with pci := dmaAdvance s2.pci .read n }
    | .err s2 => { s2 with pci := dmaStop s2.pci .read 3 }
    | .refuse _ => { s1 with pci := dmaStop s1.pci .read 3 }

/-- A piece of a running DMA (61 R747), once the bridge may master the bus (61 R741; log entry 36). -/
def dmaMove (s : State) (ch : DmaChannel) (answer : Option Word) : State :=
  if (s.pci.dma ch).running && pciUsable s.pci then
    match ch with
    | .write => dmaWriteMove s answer.isSome
    | .read => dmaReadMove s answer
  else s

/-- A response byte of the DSU link after a transfer (61 R782). DESIGN CHOICE: LR as it stands after that transfer decides, and the byte is
sent also where the transfer has cleared EN (log entry 46). -/
def linkRespond (s : State) : State := if bit s.dsu.ctrl 17 then s.emit .linkResponse else s

/-- The DSU link, enabled by EN, performs one word access (61 R780 to R782). A failed read sends an open value. DESIGN CHOICEs of log entry
46: the two low bits of the address are dropped, and the response byte of a read follows its data; of log entry 29: a write that the
model refuses to the IU is dropped. -/
def linkReadWord (s : State) (a : Word) : State :=
  if !bit s.dev.dsuUartCtrl 0 then s
  else match busRead s .dsu false (wordBase a) .word with
    | .ok v s1 => linkRespond (s1.emit (.linkData v))
    | .err s1 => linkRespond (s1.free.2.emit (.linkData s1.free.1))
    | .refuse _ => linkRespond (s.free.2.emit (.linkData s.free.1))
def linkWriteWord (s : State) (a v : Word) : State :=
  if !bit s.dev.dsuUartCtrl 0 then s
  else match busWrite s .dsu (wordBase a) .word v with
    | .ok _ s1 => linkRespond s1
    | .err s1 => linkRespond s1
    | .refuse _ => linkRespond s

/-- Four bytes of the link as a word (61 R781). -/
def linkWordOf (b0 b1 b2 b3 : Byte) : Word :=
  if Config.dsuLinkFormat.msbFirst then b0 ++ b1 ++ b2 ++ b3 else b3 ++ b2 ++ b1 ++ b0

/-- The words of a link command: reads from `a` on, writes of the data bytes that come (61 R781). -/
def linkReadWords : Nat → Word → State → State
  | 0, _, s => s
  | n + 1, a, s => linkReadWords n (a + 4) (linkReadWord s a)
def linkWriteWords : Nat → Word → List Byte → State → State
  | n + 1, a, b0 :: b1 :: b2 :: b3 :: rest, s => linkWriteWords n (a + 4) rest (linkWriteWord s a (linkWordOf b0 b1 b2 b3))
  | _, _, _, s => s

/-- A command of the link: control byte, address, data of a write (61 R781; format: log entry 46). -/
def linkCommand (s : State) : List Byte → State
  | c :: b0 :: b1 :: b2 :: b3 :: data =>
    let f := Config.dsuLinkFormat
    let n := (c &&& f.length).toNat + 1
    if c &&& f.command = 0 then s
    else if c &&& f.write = 0 then linkReadWords n (linkWordOf b0 b1 b2 b3) s
    else linkWriteWords n (linkWordOf b0 b1 b2 b3) data s
  | _ => s

/-- Baud-rate detection of the DSU link (61 R784). DESIGN CHOICE: it acts whatever EN is, as a break and the status bits do (10_state
R82; log entry 46). -/
def linkLock (d : Dev) (reload : BitVec 18) : Dev :=
  if bit d.dsuUartCtrl 1 then d else { d with dsuUartScaler := reload.setWidth 32, dsuUartCtrl := d.dsuUartCtrl ||| 2#32 }

/-- Flipped bits of stored words (20_memory R229 (f), R260, R254, R271). -/
def RegWord.upset (w : RegWord) (f : BitVec 39) : RegWord := { data := w.data ^^^ flipData f, flip := w.flip ^^^ f }
def CacheWord.upset (w : CacheWord) (d : Word) (p : BitVec 4) : CacheWord :=
  { val := w.val ^^^ d, dflip := w.dflip ^^^ d, pflip := w.pflip ^^^ p }
def upsetMemory (s : State) (w : BitVec 30) (f : BitVec 39) : State :=
  let a : Word := w ++ 0#2
  if cacheable a then s.putWord a.toNat (s.wordAt a.toNat ^^^ flipData f) (s.flipAt a.toNat ^^^ f) else s
def upsetCache (s : State) (c : CacheId) (isTag : Bool) (k : Nat) (d : Word) (p : BitVec 4) : State :=
  let x := s.getCache c
  s.setCache c (if isTag then x.putTag k ((x.tag k).upset d p) else x.putWord k ((x.word k).upset d p))

/-- The effect of one event. DESIGN CHOICEs: `linkBaud`, `linkBreak` and `linkStatus` act whatever EN of the DSU UART is (log entry 46), and
a bit of PCI_BROKEN bars none of the events that stand for a PCI master, since 61 R753 does not say whose bit it is (log entry 44). -/
def applyEvent (s : State) (e : EnvEvent) : State :=
  match e with
  | .setPins p => setPins s p
  | .uartRx u b parity framing brk => if bit (s.dev.uart u).ctrl 7 then s else uartReceive s u b parity framing brk
  | .pciRead a ahead => pciMasterRead s a ahead
  | .pciWrite a v => pciMasterWrite s a v
  | .pciCfgRead off => pciHostRead s off
  | .pciCfgWrite off v => { s with pci := pciConfigWrite s.pci off v }
  | .pciSetBar bar v => { s with pci := pciSetBar s.pci bar v }
  | .pciEnables m e => if Config.pciHostMode then s else { s with pci := { s.pci with masterEn := m, memoryEn := e } }
  | .pciReady => if Config.pciHostMode then { s with pci := { s.pci with ready := true } } else s
  | .pciRst => { s with pci := pciGuestReset s.pci }
  | .pciBroken k => if Config.pciHostMode then { s with pci := { s.pci with broken := s.pci.broken ||| (1#8 <<< k.toNat) } } else s
  | .pciStatus v =>
    { s with pci := { s.pci with istatus := s.pci.istatus ||| (v &&& (if Config.pciHostMode then 0x10001000#32 else 0x00001000#32)) } }
  | .dmaMove ch x => dmaMove s ch x
  | .dmaParity ch => if (s.pci.dma ch).running then { s with pci := dmaStop s.pci ch 2 } else s
  | .linkRead a => linkReadWord s a
  | .linkWrite a v => linkWriteWord s a v
  | .linkCommand bytes => linkCommand s bytes
  | .linkStatus v => { s with dev := { s.dev with dsuUartStat := mergeMask s.dev.dsuUartStat v 0x57#32 } }
  | .linkBaud r => { s with dev := linkLock s.dev r }
  | .linkBreak => { s with dev := { s.dev with dsuUartCtrl := s.dev.dsuUartCtrl &&& 0xFFFFFFFD#32 } }
  | .upsetMem w f => upsetMemory s w f
  | .upsetIreg i f => { s with ireg := s.ireg.set i.val ((s.ireg.get i).upset f) i.isLt }
  | .upsetFreg i f => { s with freg := s.freg.set i.val ((s.freg.get i).upset f) i.isLt }
  | .upsetCache i t k d p => upsetCache s (if i then .icache else .dcache) t k.toNat d p
  | .reset => warmReset s

/-- A break requested by BN, DSUBRE, a breakpoint or a freeze takes effect, if the DSU is enabled (61 R761). DESIGN CHOICE: DSUEN is
looked at here, at the end of the boundary, and for BN at its write too (R760; log entry 27). -/
def takeBreak (s : State) : State :=
  if s.dsu.breakReq then
    if s.pins.dsuen && !s.debugMode then enterDebug s ttWatchpoint else { s with dsu := { s.dsu with breakReq := false } }
  else s

/-- The watchdog resets the chip if the board wires it so (parameter WDOG_RESETS, 60 R684). -/
def watchdogReset (s : State) : State := if Config.wdogResets && s.dev.wdogAsserted then warmReset s else s

/-- Power-down ends when bp_IRL shows an unmasked interrupt, whatever mode the IU is in (60 R700; log entry 40). -/
def wake (s : State) : State := if bpIrl s.dev = 0 then s else { s with powerDown := false }

/-- The output pins (61 R710 to R712, R727, R728, R755, R760; 60 R646, R684; log entry 49). -/
def outPins (s : State) : OutPins :=
  let driven := portDriven s.dev &&& (if highPortUsable s.dev then 0xFFFFFFFF#32 else 0xFFFF#32)
  { rtsn1 := rtsnPin s.dev.uart1, rtsn2 := rtsnPin s.dev.uart2, rtsn3 := rtsnPin s.dev.uart3, wdog := s.dev.wdogAsserted
    errorn := s.errorMode, dsuact := s.debugMode, inta := pciInta s.pci, pioDriven := driven, pioLevel := s.dev.iodat &&& driven }

/-- Output pins that changed since the last step show. -/
def showPins (s : State) : State :=
  if outPins s = s.lines then s else { s with lines := outPins s, out := .pins (outPins s) :: s.out }

/-- The end of a boundary: the interrupt inputs of the port, the level sources, the selection of bp_IRL, which wakes the IU (70 R840),
then breaks and output pins. -/
def settle (s : State) : State := showPins (takeBreak (wake (pollLevels (pollPort s))))

/-- The clocks that pass with an entry of the schedule, of a step that takes `cycles` by the table (70 R840, parameter CYCLE_MODEL). -/
def EnvStep.elapsed (e : EnvStep) (cycles : Nat) : Nat :=
  match Config.cycleModel with
  | .table => cycles
  | .free => e.clocks + 1

/-- An event of the pins or of a serial line: a frame that arrives, levels that may clock or start a frame. -/
def EnvEvent.isSerial : EnvEvent → Bool
  | .setPins _ | .uartRx _ _ _ _ _ => true
  | _ => false

/-- The events of a list in their order. -/
def applyEvents (l : List EnvEvent) (s : State) : State := l.foldl applyEvent s

/-- Held data of the windows that has waited too long is dropped (61 R742, R744). -/
def discardHeld (s : State) : State := { s with pci := discardAhb (discardPci s.pci s.clk) s.clk }

/-- `n` cycles pass with these events, in the order of 70 R840: prescaler, timers and watchdog; UARTs and the frames and levels that
come from outside; the bridge, DMA and other bus masters; interrupt inputs; bp_IRL. DESIGN CHOICE: events of one of these places happen
in the order of the schedule, and one that R840 does not name has its place with the bus masters (log entry 13). -/
def passTime (n : Nat) (events : List EnvEvent) (s : State) : State :=
  let s1 := applyEvents (events.filter (·.isSerial)) (watchdogReset (advanceDevices n s))
  settle (applyEvents (events.filter (!·.isSerial)) (discardHeld s1))

/-- Between two steps, the last of which takes `cycles` by the table: devices, events, interrupt inputs, breaks (70 R840). DESIGN
CHOICE: where the schedule has ended the table's count passes, its lower bound, under either CYCLE_MODEL (log entry 13). -/
def boundary (s : State) (cycles : Nat) : State :=
  match s.env with
  | [] => passTime cycles [] s
  | e :: rest => passTime (e.elapsed cycles) e.events { s with env := rest }

end Sys2Proof.Machine
end

