-- ==== Sys2Proof/Machine/Run.lean ====
section
/-! DEFINITION. The pieces of one step around an instruction: interrupts, cycles, trace lines (60 R621, R640, R660 to R663, 70 R830,
11 R153). -/

namespace Sys2Proof.Machine

/-- The IU accepts the interrupt the controller presents (60 R660, parameter IRL15_NONMASKABLE). -/
def interruptTaken (s : State) : Bool :=
  let n := bpIrl s.dev
  s.psr.et && (decide (s.psr.pil.toNat < n) || (Config.irl15Nonmaskable && n = 15))

/-- Taking interrupt bp_IRL: debug mode, or acknowledge, cache freeze and trap entry (60 R640, R663, 20_memory R251, 61 R761). -/
def takeInterrupt (s : State) : State :=
  let n := bpIrl s.dev
  let tt : BitVec 8 := 0x10#8 + BitVec.ofNat 8 n
  if debugOnTrap s tt then enterDebug { s with trapped := true } tt
  else enterTrap (freezeCaches { s with dev := s.dev.acknowledge n }) tt

/-- Clock cycles of an instruction (70 R830). -/
def cyclesOf : Instr → Nat
  | .jmpl _ _ _ => 2
  | .ldd _ _ _ | .lddf _ _ _ => 2
  | .ldda _ _ _ => 2
  | .st _ _ _ | .stb _ _ _ | .sth _ _ _ | .stf _ _ _ => 2
  | .sta _ _ _ | .stba _ _ _ | .stha _ _ _ => 2
  | .stfsr _ _ => 2
  | .std _ _ _ | .stdf _ _ _ => 3
  | .stda _ _ _ => 3
  | .umul _ _ _ | .smul _ _ _ | .umulcc _ _ _ | .smulcc _ _ _ => 4
  | .udiv _ _ _ | .sdiv _ _ _ | .udivcc _ _ _ | .sdivcc _ _ _ => 35
  | .ldstub _ _ _ | .swap _ _ _ => 3
  | .ldstuba _ _ _ | .swapa _ _ _ => 3
  | _ => 1

/-- Cycles of a taken trap (70 R830). -/
def trapCycles : Nat := 4

/-- `r[n]` as an instruction wrote it, without injected errors (20_memory R262). -/
def resultOf (t : State) (n : RegNum) : Word := if t.asr16.cb = 0b1010#4 then t.r n ^^^ t.asr17 else t.r n

/-- The words of bits 95:64 of the lines an instruction writes, `none` where none is given (11 R153): stores their address and data,
the others their results. `s` is the state before it, `t` after it, and `u` after the same instruction delivering its result to `r[2]`
in place of `r[0]` (`traceTarget`). A load that only flushes a cache has no result (40 R352). DESIGN CHOICEs of log entry 28, where R153
does not name the kind: LDSTUB, SWAP and their A forms write one line, with the loaded value, and not address and data as a store; FdTOs
and FdTOi, whose result is one word, write one line, and FsMULd, FiTOd and FsTOd two; what a store of less than a word shows; that WRY,
WRPSR, WRWIM, WRTBR and WRASR have no result; that LDFSR shows FSR after the load. -/
def traceValues (w : Word) (s t u : State) : List (Option Word) :=
  let o3 := (op3Field w).toNat
  let d := if rd w = 0 then 2 else rd w
  let r := resultOf u d
  let pair := [some r, some (resultOf u (d + 1))]
  let isAlt := o3 / 16 % 4 = 1
  let flushes := isAlt && ((asiField w).extractLsb' 0 4 = 5 || (asiField w).extractLsb' 0 4 = 6)
  let ea := some (t.r (rs1 w) + (if isAlt then t.r (rs2 w) else t.operand2 (regImm w)))
  match (opField w).toNat with
  | 1 => [some (resultOf t 15)]
  | 2 =>
    if o3 = 0x34 then
      let f := (opf w).toNat
      if (f < 0x60 && f % 4 = 2) || f = 0x69 || f = 0xC8 || f = 0xC9 then [some (t.f (rd w)), some (t.f (rd w + 1))] else [some (t.f (rd w))]
    else if o3 = 0x35 || o3 = 0x39 || o3 = 0x3A || o3 = 0x3B || (0x30 ≤ o3 && o3 < 0x34) then [none]
    else if o3 = 0x28 && rs1 w = 15 && rd w = 0 then [none]
    else if o3 < 0x20 && (o3 % 16 = 10 || o3 % 16 = 11) then [some t.y, some r]
    else if o3 < 0x20 && (o3 % 16 = 14 || o3 % 16 = 15) then [some (if r.msb then 0xFFFFFFFF#32 else 0), some r]
    else [some r]
  | 3 =>
    if o3 = 0x24 then [ea, some (t.f (rd w))]
    else if o3 = 0x25 then [ea, some (fsrWord s.fsr)]
    else if o3 = 0x27 then [ea, some (t.f (rd w)), some (t.f (rd w + 1))]
    else if o3 = 0x20 then [some (t.f (rd w))]
    else if o3 = 0x23 then [some (t.f (rd w)), some (t.f (rd w + 1))]
    else if o3 = 0x21 then [some (fsrWord t.fsr)]
    else if o3 % 16 = 3 then (if flushes then [none, none] else pair)
    else if o3 % 16 = 4 || o3 % 16 = 5 || o3 % 16 = 6 then [ea, some (t.r (rd w))]
    else if o3 % 16 = 7 then [ea, some (t.r (rd w)), some (t.r (rd w + 1))]
    else if flushes && (o3 % 16 < 3 || o3 % 16 = 9 || o3 % 16 = 10) then [none]
    else [some r]
  | _ => if op2Field w = 4 then [some r] else [none]

/-- The trace lines of the instruction word `w` at `pc` (11 R153). -/
def traceLines (pc w : Word) (hit : Bool) (trapped err : Bool) : Bool → List (Option Word) → State → State
  | _, [], t => t
  | multi, v :: rest, t =>
    let p := traceField t v
    let line : BitVec 128 :=
      b1 hit ++ b1 multi ++ p.2.dsu.timeTag ++ p.1 ++ pc.extractLsb' 2 30 ++ b1 trapped ++ b1 err ++ w
    traceLines pc w hit trapped err true rest (traceInstrLine p.2 line)

/-- Execute the word `w`, fetched in state `s` (30 R315, R320). -/
def execWord (w : Word) (s : State) (execute : Instr → State → Result) : Result :=
  match decode w with
  | .ok i => execute i s
  | .error .unassignedFpop => fpUnimplemented s
  | .error _ => raise s ttIllegal

/-- The word that writes to `r[2]` what `w` reads or computes for `r[0]`: `w` with rd = 2. SWAP and SWAPA would store `r[2]` too: for them
it is the load of the same word, LD or LDA, with ASI 7 in place of 5 and 6, where a load only flushes and SWAPA reads past the cache
(40 R352, R375, R376). -/
def resultWord (w : Word) : Word :=
  let o3 := (op3Field w).toNat
  let v := w ||| 0x04000000#32
  if opField w = 3 ∧ (o3 = 0x0F ∨ o3 = 0x1F) then
    let k := (asiField w).extractLsb' 0 4
    let load := mergeMask v 0 0x00780000#32
    if o3 = 0x1F ∧ (k = 5 ∨ k = 6) then mergeMask load (7#32 <<< 5) 0x1E0#32 else load
  else v

/-- The state after the word `w` delivering its result to `r[2]` in place of `r[0]`, executed in `s1`; `t` where it names another
register. -/
def traceTarget (w : Word) (s1 t : State) (execute : Instr → State → Result) : State :=
  if rd w = 0 then
    match execWord (resultWord w) s1 execute with
    | .next u => u
    | _ => t
  else t

/-- Tracing of one executed instruction: `s` before its fetch, `s1` after it, `t` at its end. One that traps writes one line (log entry
28). DESIGN CHOICE: TE counts before the instruction, TE and TI after it, so the store that sets TE, and one that clears TE or TI, has no
line, and one that sets TI has (log entry 28). -/
def traceInstr (w : Word) (s s1 t : State) (execute : Instr → State → Result) : State :=
  if tracing s && t.dsu.ti then
    traceLines s.pc w s.dsu.hitInstr t.trapped t.errorMode false
      (if t.trapped then [none] else traceValues w s t (traceTarget w s1 t execute)) t
  else t

/-- The end of an instruction step: a single step requests the return to debug mode (61 R762), which is made at the end of the boundary,
when the clocks of the instruction have passed and been counted (11 R151). -/
def endStep (s t : State) : State :=
  let back := s.dsu.stepping && s.pins.dsuen && !t.debugMode
  { t with dsu := { t.dsu with stepping := false, breakReq := t.dsu.breakReq || back } }

/-- The instruction at pc has a breakpoint that enters debug mode before it executes (61 R760, R767). -/
def breaksHere (s : State) : Bool := s.dsu.hitInstr && bit s.dsu.ctrl 8 && s.pins.dsuen
def breakNow (s : State) : State := enterDebug (dsuHit s) ttWatchpoint

/-- A trap that entered debug mode in `t`: the instruction is not executed and nothing else happens, so all but the open values used
is as in `s`, before the fetch (61 R760, R761; log entry 39). -/
def turnBack (s t : State) : State := enterDebug { s with trapped := true, freeCtr := t.freeCtr } t.dsu.dtr

/-- After an instruction: the instruction it annuls is skipped (42 R470), at no clock of its own (DESIGN CHOICE, log entry 13), its trace
lines are written, then a breakpoint hit on it counts (61 R767). A breakpoint or a trap that enters debug mode leaves it unexecuted. -/
def afterInstr (w : Word) (s s1 t : State) (execute : Instr → State → Result) : State :=
  if breaksHere s then breakNow s
  else if t.debugMode then turnBack s t
  else
    let t1 := traceInstr w s s1 (skipAnnulled t) execute
    endStep s (if s.dsu.hitInstr then dsuHit t1 else t1)

/-- Clock cycles of the step that ended in `t`. DESIGN CHOICE: a trap that becomes error mode or debug mode counts as a taken one (log
entry 13). -/
def stepCycles (w : Word) (t : State) : Nat :=
  if t.trapped then trapCycles
  else match decode w with
    | .ok i => cyclesOf i
    | .error _ => 1

/-- The opcode that the trace line of an instruction shows whose fetch failed: none is given, so it is free (11 R153; log entry 28). -/
def lostOpcode (s : State) : Word × State := if tracing s && s.dsu.ti then s.free else (0, s)

/-- One instruction step: fetch, execute, trap or interrupt (60 R621). `s` has no annulled instruction before it. An instruction that
an interrupt replaces is not executed: it has no trace line and no breakpoint hit. -/
def instrStep (s : State) (execute : Instr → State → Result) : Result :=
  match fetchWord s s.pc with
  | .refuse r => .refused r
  | .err s1 =>
    let p := lostOpcode s1
    .next (boundary (afterInstr p.1 s p.2 (trapState p.2 id ttInstructionAccess) execute) trapCycles)
  | .ok w s1 =>
    match execWord w s1 execute with
    | .next t =>
      if !t.trapped && interruptTaken s then .next (boundary (endStep s (takeInterrupt s)) trapCycles)
      else .next (boundary (afterInstr w s s1 t execute) (stepCycles w t))
    | .fault r => .fault r
    | .refused r => .refused r

/-- A DSU breakpoint on the instruction at pc: it breaks at once if BB = 1 and no interrupt comes first, else the step goes on
(61 R760, R766, R767). DESIGN CHOICE: the break counts 1 clock where the table's number passes (log entry 13). -/
def breakpointStep (s : State) (execute : Instr → State → Result) : Result :=
  let s1 := { s with dsu := { s.dsu with hitInstr := bpInstr s s.pc } }
  if breaksHere s1 && !interruptTaken s1 then .next (boundary (breakNow s1) 1) else instrStep s1 execute

/-- One step of the machine. In error mode, debug mode and power-down the IU executes nothing while the devices run (60 R646, R700,
61 R760); power-down ends when an unmasked interrupt arrives. -/
def machineStep (s : State) (execute : Instr → State → Result) : Result :=
  if s.errorMode || s.debugMode then .next (boundary s 1)
  else if s.powerDown && bpIrl s.dev = 0 then .next (boundary s 1)
  else breakpointStep { skipAnnulled s with trapped := false, powerDown := false } execute

end Sys2Proof.Machine
end

