-- ==== Sys2Proof/Machine/Step.lean ====
section
/-! DEFINITION. One step of the machine, and a word placed where it fetches. -/

namespace Sys2Proof.Machine

/-- One step (60 R621). -/
def step (s : State) : Host.Outcome State Fault Refusal := machineStep s exec

/-- `s` with the instruction whose bits are `w` stored where the next step fetches, with valid check bits. Every instruction is one
32-bit word (30_encoding R300); an annulled one is skipped first (42 R470). -/
def State.withFetchWord (s : State) (_nbits w : Nat) : State := s.putWord (skipAnnulled s).pc.toNat (BitVec.ofNat 32 w) 0

end Sys2Proof.Machine
end

