-- ==== Sys2Proof/Safety.lean ====
section
/-! DEFINITION. The terms claims use: states in which nothing outside an instruction's own rule stops it, what completing and
trapping mean, the invariant every step keeps. -/

namespace Sys2Proof.Machine

/-! ### States -/

/-- Every word of the integer register file, and of the f registers, is a valid code word (20_memory R260). -/
def RegsClean (s : State) : Prop := ∀ i : Fin 136, (s.ireg.get i).flip = 0
def FregsClean (s : State) : Prop := ∀ i : Fin 32, (s.freg.get i).flip = 0

/-- Register-file error injection is off (20_memory R262). -/
def NoInjection (s : State) : Prop := s.asr16.cb ≠ 0b1010#4

/-- No watchpoint matches the fetch of the instruction at pc, its registers hold no error, no error is injected. -/
def Plain (s : State) : Prop := watchFetch s s.pc = false ∧ RegsClean s ∧ NoInjection s

/-- A plain state that may run floating-point instructions (44 R560). -/
def FpPlain (s : State) : Prop := Plain s ∧ FregsClean s ∧ s.psr.ef = true

/-- The trap of type `tt` is taken: traps are enabled and the DSU does not take it over (60 R640, R646, 61 R761). -/
def CanTrap (s : State) (tt : BitVec 8) : Prop := s.psr.et = true ∧ debugOnTrap s tt = false

/-- The DSU watches no bus transfer at `a` and traces none (61 R766, R768). -/
def DsuIdle (s : State) (a : Word) : Prop := tracing s = false ∧ bpBus s false a = false ∧ bpBus s true a = false

/-- `a` lies in an enabled bank of RAM that answers, its word holds no error, check bits are not read back, and the data cache is off
(20_memory R214, R220, R242, R273). -/
def PlainRam (s : State) (a : Word) : Prop :=
  areaOf a = .ram ∧ (ramBank s.dev a).isSome = true ∧ busException s = false ∧ erbOn s.dev = false ∧
    s.flipAt (wordBase a).toNat = 0 ∧ cacheOn s.dev .dcache = false ∧ DsuIdle s a

/-- As `PlainRam`, whatever the data cache does: a read past the cache finds such a place (20_memory R206, R249). -/
def ReadableRam (s : State) (a : Word) : Prop :=
  areaOf a = .ram ∧ (ramBank s.dev a).isSome = true ∧ busException s = false ∧ erbOn s.dev = false ∧
    s.flipAt (wordBase a).toNat = 0 ∧ DsuIdle s a

/-- Such a place that may be written: not protected, and no error injected on writing (20_memory R236, R273). -/
def WritableRam (s : State) (a : Word) : Prop := PlainRam s a ∧ writeProtected s.dev a = false ∧ ewbOn s.dev = false

/-- No data watchpoint matches a load, or a store, at `a` (60 R632). -/
def NoWatch (s : State) (isLoad isStore : Bool) (a : Word) : Prop := watchData s isLoad isStore a = false

/-- The effective address (40 R350). -/
def ea (s : State) (rs1 : RegNum) (op2 : RegImm) : Word := s.r rs1 + s.operand2 op2

/-! ### Completing -/

/-- From `u` to `t`, `r[rd]` takes `v` with valid check bits; `r[0]` discards it; no other register of the file changes (10_state R22,
20_memory R260). -/
def WritesReg (u t : State) (rd : RegNum) (v : Word) : Prop :=
  (rd ≠ 0 → t.r rd = v ∧ (t.ireg.get (regIndex u.psr.cwp rd)).flip = 0) ∧ (∀ n, n ≠ rd → t.r n = u.r n) ∧ t.r 0 = 0 ∧
    ∀ i : Fin 136, (rd = 0 ∨ i ≠ regIndex u.psr.cwp rd) → t.ireg.get i = u.ireg.get i

/-- The outcome is a next state that differs from `u` in `r[rd]`, which takes `v`, and in pc and npc, which advance. -/
def Completes (o : Result) (u : State) (rd : RegNum) (v : Word) : Prop :=
  ∃ t, o = .next t ∧ WritesReg u t rd v ∧ t = { u with ireg := t.ireg, pc := u.npc, npc := u.npc + 4 } ∧
    ∀ a, t.byteAt a = u.byteAt a

/-- As `Completes`, with a delayed transfer to `target` in place of the advance (42 R470). -/
def CompletesTo (o : Result) (u : State) (rd : RegNum) (v target : Word) : Prop :=
  ∃ t, o = .next t ∧ WritesReg u t rd v ∧ t = { u with ireg := t.ireg, pc := u.npc, npc := target } ∧ ∀ a, t.byteAt a = u.byteAt a

/-- From `u` to `t`, `r[rd]` takes `hi` and `r[rd+1]` takes `lo`, with valid check bits, `rd` even (40 R358, 20_memory R260). -/
def WritesPair (u t : State) (rd : RegNum) (hi lo : Word) : Prop :=
  (rd ≠ 0 → t.r rd = hi ∧ (t.ireg.get (regIndex u.psr.cwp rd)).flip = 0) ∧
    t.r (rd + 1) = lo ∧ (t.ireg.get (regIndex u.psr.cwp (rd + 1))).flip = 0 ∧ (∀ n, n ≠ rd → n ≠ rd + 1 → t.r n = u.r n) ∧ t.r 0 = 0 ∧
    ∀ i : Fin 136, (rd = 0 ∨ i ≠ regIndex u.psr.cwp rd) → i ≠ regIndex u.psr.cwp (rd + 1) → t.ireg.get i = u.ireg.get i

/-- As `Completes`, for a pair of registers. -/
def CompletesPair (o : Result) (u : State) (rd : RegNum) (hi lo : Word) : Prop :=
  ∃ t, o = .next t ∧ WritesPair u t rd hi lo ∧ t = { u with ireg := t.ireg, pc := u.npc, npc := u.npc + 4 } ∧
    ∀ a, t.byteAt a = u.byteAt a

/-- `x` are the condition codes of a sum or difference whose exact signed value is `exact`, truncated to `res` (41 R402). -/
def IccOf (x : Icc) (res : Word) (exact : Int) (carry : Prop) : Prop :=
  x.n = res.msb ∧ (x.z = true ↔ res = 0) ∧ (x.v = true ↔ exact ≠ res.toInt) ∧ (x.c = true ↔ carry)

/-- The outcome is that of a branch (42 R470): the next state, once the annulled instruction is skipped, has pc and npc as one of the
four lines of that rule says, and nothing else of it changes. -/
def Branches (o : Result) (s : State) (always taken a : Bool) (target : Word) : Prop :=
  ∃ t, o = .next t ∧ t.annul = (a && (always || !taken)) ∧
    skipAnnulled t =
      if taken then
        if a && always then { s with pc := target, npc := target + 4 } else { s with pc := s.npc, npc := target }
      else if a then { s with pc := s.npc + 4, npc := s.npc + 8 } else { s with pc := s.npc, npc := s.npc + 4 }

/-- The target of a branch (42 R473). -/
def State.branchTo (s : State) (disp22 : BitVec 22) : Word := s.pc + 4 * disp22.signExtend 32

/-- The second part of a Ticc operand (42 R479). -/
def State.trapOperand (s : State) : TrapArg → Word
  | .reg rs2 => s.r rs2
  | .imm n => n.setWidth 32

/-- From `u` to `t`, the f registers of the list take the values given, with valid check bits, and no other changes
(20_memory R260). -/
def WritesFregs (u t : State) (l : List (RegNum × Word)) : Prop :=
  (∀ p ∈ l, t.freg.get (fregIndex p.1) = { data := p.2, flip := 0 }) ∧
    ∀ i : Fin 32, (∀ p ∈ l, i ≠ fregIndex p.1) → t.freg.get i = u.freg.get i

/-- The outcome is a next state that differs from `u` in the f registers of the list and in pc and npc, which advance. -/
def CompletesF (o : Result) (u : State) (l : List (RegNum × Word)) : Prop :=
  ∃ t, o = .next t ∧ WritesFregs u t l ∧ t = { u with freg := t.freg, pc := u.npc, npc := u.npc + 4 } ∧
    ∀ a, t.byteAt a = u.byteAt a

/-- The bytes of memory from `a` on take the values of the list, and no other byte changes. -/
def StoresBytes (u t : State) (a : Word) (l : List Byte) : Prop :=
  (∀ k (h : k < l.length), t.byteAt (a.toNat + k) = l[k]) ∧
    ∀ x, (x < a.toNat ∨ a.toNat + l.length ≤ x) → t.byteAt x = u.byteAt x

/-- A store of `n` bytes at `a` leaves the check bits of every other word as they are, and gives valid ones to a word it stores to in a
bank with EDAC (20_memory R273, R276). A store of 8 bytes covers the words at `a` and `a + 4`. -/
def StoresFlips (u t : State) (a : Word) (n : Nat) : Prop :=
  (∀ x, (x / 4 < a.toNat / 4 ∨ (a.toNat + n - 1) / 4 < x / 4) → t.flipAt x = u.flipAt x) ∧
    ∀ k ∈ [0, 4], k < n → ∀ b, ramBank u.dev (a + BitVec.ofNat 32 k) = some b → b.en = true → t.flipAt (a.toNat + k) = 0

/-- The outcome is a next state that differs from `u` in the bytes stored, in `r[rd]`, which takes `v`, and in pc and npc. -/
def CompletesStore (o : Result) (u : State) (a : Word) (l : List Byte) (rd : RegNum) (v : Word) : Prop :=
  ∃ t, o = .next t ∧ StoresBytes u t a l ∧ StoresFlips u t a l.length ∧ WritesReg u t rd v ∧
    t = { u with mem := t.mem, memFlip := t.memFlip, ireg := t.ireg, pc := u.npc, npc := u.npc + 4 }

/-! ### Trapping -/

/-- From `s` to `t` the trap of type `tt` is entered: pc and npc are saved, with valid check bits, in `r[17]` and `r[18]` of the new
window, PSR and tt change, pc goes to the trap table, nothing else changes (60 R640, 20_memory R260). -/
def EntersTrap (s t : State) (tt : BitVec 8) : Prop :=
  t.psr = { s.psr with et := false, ps := s.psr.s, s := true, cwp := s.psr.cwp - 1 } ∧ t.tt = tt ∧
    t.pc = s.tba ++ tt ++ 0#4 ∧ t.npc = t.pc + 4 ∧ t.r 17 = s.pc ∧ t.r 18 = s.npc ∧
    (t.ireg.get (regIndex (s.psr.cwp - 1) 17)).flip = 0 ∧ (t.ireg.get (regIndex (s.psr.cwp - 1) 18)).flip = 0 ∧
    (∀ i : Fin 136, i ≠ regIndex (s.psr.cwp - 1) 17 → i ≠ regIndex (s.psr.cwp - 1) 18 → t.ireg.get i = s.ireg.get i) ∧
    t = { s with ireg := t.ireg, psr := t.psr, tt := t.tt, pc := t.pc, npc := t.npc, trapped := true } ∧
    ∀ a, t.byteAt a = s.byteAt a

/-- The outcome is the entry of the trap of type `tt` from `u`. -/
def Traps (o : Result) (u : State) (tt : BitVec 8) : Prop := ∃ t, o = .next t ∧ EntersTrap u t tt

/-- The outcome of Ticc (42 R479): the trap of type 128 + n where the condition holds, else the next instruction. -/
def TrapsIf (o : Result) (s : State) (cond : Bool) (rs1 : RegNum) (arg : TrapArg) : Prop :=
  let tt := BitVec.ofNat 8 (128 + (s.r rs1 + s.trapOperand arg).toNat % 128)
  if cond then CanTrap s tt → Traps o s tt else Completes o s 0 0

/-- The single in `f[n]`, the double in `f[n]` and `f[n+1]`, as numbers (44 introduction). -/
def State.single (s : State) (n : RegNum) : Nat := (s.f n).toNat
def State.double (s : State) (n : RegNum) : Nat := (s.f n).toNat * 2 ^ 32 + (s.f (n + 1)).toNat

/-- The end of an FPop with the exceptions `ex` (44 R565): with none of them enabled it completes, the f registers of the list are
written, and cexc, aexc, ftt take what the rule gives; else fp_exception is taken and only cexc and ftt change. -/
def FpEnds (o : Result) (s : State) (ex : BitVec 5) (l : List (RegNum × Word)) : Prop :=
  (s.fsr.tem = 0 ∨ s.fsr.tem &&& ex = 0 →
    CompletesF o { s with fsr := { s.fsr with cexc := ex, aexc := s.fsr.aexc ||| ex, ftt := 0 } } l) ∧
  (s.fsr.tem &&& ex ≠ 0 → CanTrap s ttFpException →
    Traps o { s with fsr := { s.fsr with cexc := ex, ftt := fttIeee } } ttFpException)

/-! ### IEEE 754 results, from the bits alone (44 R570, R598; formats and NaN payloads: log entry 31) -/

/-- Exponent field, fraction field and sign of the number with bits `w`. -/
def FpFormat.expOf (t : FpFormat) (w : Nat) : Nat := w / 2 ^ t.mb % 2 ^ t.eb
def FpFormat.fracOf (t : FpFormat) (w : Nat) : Nat := w % 2 ^ t.mb
def FpFormat.neg (t : FpFormat) (w : Nat) : Bool := w / 2 ^ (t.eb + t.mb) % 2 = 1

/-- Classes of numbers; a NaN is signaling when the first bit of its fraction is 0 (44 R598). -/
def FpFormat.nan (t : FpFormat) (w : Nat) : Bool := t.expOf w = 2 ^ t.eb - 1 && t.fracOf w ≠ 0
def FpFormat.snan (t : FpFormat) (w : Nat) : Bool := t.nan w && decide (t.fracOf w < 2 ^ (t.mb - 1))
def FpFormat.infinite (t : FpFormat) (w : Nat) : Bool := t.expOf w = 2 ^ t.eb - 1 && t.fracOf w = 0
def FpFormat.finite (t : FpFormat) (w : Nat) : Bool := t.expOf w ≠ 2 ^ t.eb - 1
def FpFormat.zero (t : FpFormat) (w : Nat) : Bool := t.expOf w = 0 && t.fracOf w = 0

/-- The value of a finite number. -/
def FpFormat.value (t : FpFormat) (w : Nat) : Rat :=
  (if t.neg w then -1 else 1) *
    (if t.expOf w = 0 then t.fracOf w * (2 : Rat) ^ (1 - (t.bias : Int) - t.mb)
    else (2 ^ t.mb + t.fracOf w) * (2 : Rat) ^ ((t.expOf w : Int) - t.bias - t.mb))

/-- Bits of a zero and of an infinity. -/
def FpFormat.zeroBits (t : FpFormat) (neg : Bool) : Nat := if neg then 2 ^ (t.eb + t.mb) else 0
def FpFormat.infinityBits (t : FpFormat) (neg : Bool) : Nat := t.zeroBits neg + (2 ^ t.eb - 1) * 2 ^ t.mb

/-- Rounded in direction `rm`, `x` is larger in magnitude than the largest finite number, 2^(bias+1) - 2^(bias-mb) (44 R570). -/
def Overflows (t : FpFormat) (rm : BitVec 2) (x : ℝ) : Prop :=
  2 ^ (t.bias + 1) ≤ |x| ∨ (rm = 0 ∧ 2 ^ (t.bias + 1) - 2 ^ (t.bias - t.mb - 1) ≤ |x|) ∨
    ((rm = 2 ∧ 0 < x ∨ rm = 3 ∧ x < 0) ∧ 2 ^ (t.bias + 1) - 2 ^ (t.bias - t.mb) < |x|)

/-- `w` is `x` rounded to format `t` in direction `rm`, and `ex` (nv, of, uf, dz, nx from bit 4 down) its exceptions; an exact zero has
the sign `zeroNeg` (44 R570, 10_state R37, R40). Without overflow it is the finite number nearest to `x`, the even one of two; or the
largest in magnitude not beyond `x`; or the least not below; or the greatest not above. With overflow it is an infinity where that
lies in the direction, else the largest finite number. `ufm` is the mask of underflow. -/
def Rounds (t : FpFormat) (rm : BitVec 2) (ufm : Bool) (x : ℝ) (zeroNeg : Bool) (w : Nat) (ex : BitVec 5) : Prop :=
  let v : ℝ := t.value w
  w < 2 ^ (1 + t.eb + t.mb) ∧ (t.neg w = true ↔ x < 0 ∨ (x = 0 ∧ zeroNeg = true)) ∧
    ex.getLsbD 4 = false ∧ ex.getLsbD 1 = false ∧ (ex.getLsbD 3 = true ↔ Overflows t rm x) ∧
    (ex.getLsbD 2 = true ↔ x ≠ 0 ∧ |x| < 2 ^ (1 - (t.bias : Int)) ∧ (ex.getLsbD 0 = true ∨ ufm = true)) ∧
    (Overflows t rm x →
      ex.getLsbD 0 = true ∧
        if rm = 0 ∨ (rm = 2 ∧ 0 < x) ∨ (rm = 3 ∧ x < 0) then t.infinite w = true
        else t.expOf w = 2 ^ t.eb - 2 ∧ t.fracOf w = 2 ^ t.mb - 1) ∧
    (¬Overflows t rm x →
      t.finite w = true ∧ (ex.getLsbD 0 = true ↔ v ≠ x) ∧
        ∀ y, y < 2 ^ (1 + t.eb + t.mb) → t.finite y = true →
          let z : ℝ := t.value y
          (rm = 0 → |v - x| ≤ |z - x| ∧ (|v - x| = |z - x| → z ≠ v → w % 2 = 0)) ∧
            (rm = 1 → |v| ≤ |x| ∧ (|z| ≤ |x| → |z| ≤ |v|)) ∧ (rm = 2 → x ≤ v ∧ (x ≤ z → v ≤ z)) ∧
            (rm = 3 → v ≤ x ∧ (z ≤ x → z ≤ v)))

/-- An invalid operation without a NaN operand: the NaN with all bits but the sign set, and nv (44 R570, R598). -/
def InvalidResult (t : FpFormat) (w : Nat) (ex : BitVec 5) : Prop := w = 2 ^ (t.eb + t.mb) - 1 ∧ ex = 0b10000

/-- A NaN operand made quiet and brought to format `dst`: its sign, and the first bits of its fraction with the first bit set
(44 R598). -/
def quieted (src dst : FpFormat) (a : Nat) : Nat :=
  dst.infinityBits (src.neg a) + 2 ^ (dst.mb - 1) + src.fracOf a * 2 ^ dst.mb / 2 ^ src.mb % 2 ^ (dst.mb - 1)

/-- The result where the rs1 operand `a` or the rs2 operand `b` is a NaN (44 R570, R598). -/
def NanResult (src dst : FpFormat) (a b w : Nat) (ex : BitVec 5) : Prop :=
  w = quieted src dst (if src.nan b then b else a) ∧ ex = if src.snan a || src.snan b then 0b10000 else 0

/-- Sum, or difference, of `a` and `b` (44 R582 to R585). -/
def SumResult (t : FpFormat) (rm : BitVec 2) (ufm minus : Bool) (a b w : Nat) (ex : BitVec 5) : Prop :=
  let nb := t.neg b ^^ minus
  if t.nan a || t.nan b then NanResult t t a b w ex
  else if t.infinite a && t.infinite b && (t.neg a ^^ nb) then InvalidResult t w ex
  else if t.infinite a then w = t.infinityBits (t.neg a) ∧ ex = 0
  else if t.infinite b then w = t.infinityBits nb ∧ ex = 0
  else
    Rounds t rm ufm ((t.value a + if minus then -t.value b else t.value b : Rat) : ℝ)
      (if t.zero a && t.zero b && (t.neg a == nb) then nb else rm = 3) w ex

/-- Product, in format `dst` (44 R586 to R588). -/
def ProductResult (src dst : FpFormat) (rm : BitVec 2) (ufm : Bool) (a b w : Nat) (ex : BitVec 5) : Prop :=
  let n := src.neg a ^^ src.neg b
  if src.nan a || src.nan b then NanResult src dst a b w ex
  else if (src.infinite a && src.zero b) || (src.zero a && src.infinite b) then InvalidResult dst w ex
  else if src.infinite a || src.infinite b then w = dst.infinityBits n ∧ ex = 0
  else Rounds dst rm ufm ((src.value a * src.value b : Rat) : ℝ) n w ex

/-- Quotient; a finite nonzero number by zero raises dz (44 R589, R590). -/
def QuotientResult (t : FpFormat) (rm : BitVec 2) (ufm : Bool) (a b w : Nat) (ex : BitVec 5) : Prop :=
  let n := t.neg a ^^ t.neg b
  if t.nan a || t.nan b then NanResult t t a b w ex
  else if (t.infinite a && t.infinite b) || (t.zero a && t.zero b) then InvalidResult t w ex
  else if t.infinite a then w = t.infinityBits n ∧ ex = 0
  else if t.infinite b then w = t.zeroBits n ∧ ex = 0
  else if t.zero b then w = t.infinityBits n ∧ ex = 0b00010
  else Rounds t rm ufm ((t.value a / t.value b : Rat) : ℝ) n w ex

/-- Square root; that of a zero is the zero itself (44 R580, R581). -/
def RootResult (t : FpFormat) (rm : BitVec 2) (ufm : Bool) (a w : Nat) (ex : BitVec 5) : Prop :=
  if t.nan a then NanResult t t a a w ex
  else if t.zero a then w = t.zeroBits (t.neg a) ∧ ex = 0
  else if t.neg a then InvalidResult t w ex
  else if t.infinite a then w = t.infinityBits false ∧ ex = 0
  else Rounds t rm ufm (Real.sqrt ((t.value a : Rat) : ℝ)) false w ex

/-- Conversion between the formats (44 R575, R576). -/
def ConvertResult (src dst : FpFormat) (rm : BitVec 2) (ufm : Bool) (a w : Nat) (ex : BitVec 5) : Prop :=
  if src.nan a then NanResult src dst a a w ex
  else if src.infinite a then w = dst.infinityBits (src.neg a) ∧ ex = 0
  else Rounds dst rm ufm ((src.value a : Rat) : ℝ) (src.neg a) w ex

/-- Conversion to an integer, toward zero; outside the range nv and the end of the range on the side of the sign (44 R573, R574). -/
def IntegerResult (t : FpFormat) (a w : Nat) (ex : BitVec 5) : Prop :=
  let outside : Prop := w = (if t.neg a then 0x80000000 else 0x7FFFFFFF) ∧ ex = 0b10000
  if t.finite a then
    ∃ n : Int, |(n : Rat)| ≤ |t.value a| ∧ |t.value a| < |(n : Rat)| + 1 ∧ 0 ≤ n * t.value a ∧
      if -(2 ^ 31) ≤ n ∧ n < 2 ^ 31 then w = (BitVec.ofInt 32 n).toNat ∧ ex = if (n : Rat) = t.value a then 0 else 0b00001
      else outside
  else outside

/-- The value of a finite operand (44 R570). -/
def Fp.value : Fp → Rat
  | .fin sign m e => (if sign then -1 else 1) * m * (2 : Rat) ^ e
  | _ => 0
def Fp.finite : Fp → Bool
  | .fin _ _ _ => true
  | _ => false

/-! ### Stepping -/

/-- The state in which the next instruction is fetched: an annulled one is skipped, power-down has ended (42 R470, 60 R700). -/
def State.ready (s : State) : State :=
  { skipAnnulled s with trapped := false, powerDown := false, dsu := { (skipAnnulled s).dsu with hitInstr := false } }

/-- The IU executes an instruction in this step: it is not in error mode, debug mode or power-down, and the DSU breaks on no
instruction at pc (60 R621, R646, R700, 61 R760, R767). -/
def Runs (s : State) : Prop :=
  s.errorMode = false ∧ s.debugMode = false ∧ (s.powerDown = false ∨ bpIrl s.dev ≠ 0) ∧
    bpInstr { skipAnnulled s with trapped := false, powerDown := false } (skipAnnulled s).pc = false

/-- The word at pc is fetched from PROM or enabled RAM, without an error, the instruction cache off (20_memory R212, R214, R242). -/
def PlainFetch (s : State) : Prop :=
  (areaOf s.pc = .prom ∨ (areaOf s.pc = .ram ∧ (ramBank s.dev s.pc).isSome = true)) ∧ wordBase s.pc = s.pc ∧
    busException s = false ∧ erbOn s.dev = false ∧ s.flipAt s.pc.toNat = 0 ∧ cacheOn s.dev .icache = false ∧ DsuIdle s s.pc

/-- The step that ends after instruction word `w` with outcome `o`, from the fetch state `s` (60 R621): an interrupt takes the place
of an instruction that does not trap. -/
def stepEnds (w : Word) (s : State) : Result → Result
  | .next t =>
    if t.trapped = false ∧ interruptTaken s = true then .next (boundary (endStep s (takeInterrupt s)) trapCycles)
    else .next (boundary (afterInstr w s s t exec) (stepCycles w t))
  | .fault f => .fault f
  | .refused r => .refused r

/-- `a` lies in an enabled bank of RAM that answers, its word holds no error and check bits are not read back (20_memory R214, R220,
R273); no error is injected into a cache (20_memory R255). -/
def CachedRam (s : State) (a : Word) : Prop :=
  areaOf a = .ram ∧ (ramBank s.dev a).isSome = true ∧ busException s = false ∧ erbOn s.dev = false ∧
    s.flipAt (wordBase a).toNat = 0 ∧ s.dev.ccr1.extractLsb' 11 3 ≠ 0b011#3 ∧ DsuIdle s a

/-- The tag, or the data word, that way `w` of cache `c` holds for the word at `a`, has wrong parity (20_memory R254). -/
def badTag (s : State) (c : CacheId) (a : Word) (w : Nat) : Bool := parityBad ((s.getCache c).tag (tagKey c w (cacheSet c a)))
def badWord (s : State) (c : CacheId) (a : Word) (w : Nat) : Bool := parityBad ((s.getCache c).word (dataKey w a))

/-- A read of the word at `a` hits way `w` of cache `c`, which holds `v` with good parity there; and way `w` was used last. -/
def Holds (t : State) (c : CacheId) (a : Word) (w : Nat) (v : Word) : Prop :=
  hitWay c (t.getCache c) a = some w ∧ (t.getCache c).word (dataKey w a) = CacheWord.clean v
def UsedLast (x : Cache) (c : CacheId) (a : Word) (w : Nat) : Prop := (x.order (cacheSet c a)).getLast? = some w

/-- From `s` to `t` no tag of cache `c` changes but that of the line of `a` in way `w`, and no data word but those of that way at the
addresses `l`. -/
def OtherLinesKept (s t : State) (c : CacheId) (a : Word) (w : Nat) (l : List Word) : Prop :=
  (∀ k, k ≠ tagKey c w (cacheSet c a) → (t.getCache c).tag k = (s.getCache c).tag k) ∧
    ∀ k, (∀ x ∈ l, k ≠ dataKey w x) → (t.getCache c).word k = (s.getCache c).word k

/-- CCR3 after one parity error in a tag, or else in a data word, of cache `c`, its counter below the maximum (20_memory R256). -/
def countedError (c : CacheId) (tag : Bool) (ccr3 : Word) : Word :=
  ccr3 + (1#32 <<< (match c, tag with | .icache, true => 10 | .icache, false => 0 | .dcache, true => 26 | .dcache, false => 16))
def counterBelowMax (c : CacheId) (tag : Bool) (ccr3 : Word) : Prop :=
  match c, tag with
  | .icache, true => ccr3.extractLsb' 10 6 ≠ 0x3F#6
  | .icache, false => ccr3.extractLsb' 0 10 ≠ 0x3FF#10
  | .dcache, true => ccr3.extractLsb' 26 6 ≠ 0x3F#6
  | .dcache, false => ccr3.extractLsb' 16 10 ≠ 0x3FF#10

/-- Byte `k` of a word, 0 the most significant, and the halfword that begins with it (20_memory R201). -/
def byteOf (v : Word) (k : Nat) : Byte := v.extractLsb' (8 * (3 - k)) 8
def halfOf (v : Word) (k : Nat) : BitVec 16 := byteOf v k ++ byteOf v (k + 1)

/-- What a normal data read of the word at `b` finds: the cached copy, or else memory (20_memory R246). -/
def cachedWord (s : State) (b : Word) : Word :=
  match hitWay .dcache s.dcache b with
  | some w => (s.dcache.word (dataKey w b)).val
  | none => s.wordAt b.toNat

/-- Where the data cache holds the word at `b`, its tag and its word have good parity (20_memory R254). -/
def GoodIfHeld (s : State) (b : Word) : Prop :=
  ∀ w, hitWay .dcache s.dcache b = some w → badTag s .dcache b w = false ∧ badWord s .dcache b w = false

/-- From `s`, the outcome reads the word at `b` from memory, a way of the data cache holds it then, used last, and `r[rd]` takes `v`. -/
def CacheFills (s : State) (o : Result) (rd : RegNum) (b v : Word) : Prop :=
  let hit := hitWay .dcache s.dcache b
  ∃ t w, o = .next t ∧ WritesReg s t rd v ∧ Holds t .dcache b w (s.wordAt b.toNat) ∧ UsedLast t.dcache .dcache b w ∧
    OtherLinesKept s t .dcache b w [b] ∧ (hit = none → badTag t .dcache b w = false) ∧ (hit = none ∨ hit = some w) ∧
    t = { s with ireg := t.ireg, dcache := t.dcache, pc := s.npc, npc := s.npc + 4 }

/-- The outcome of a normal load through the data cache, of which `r[rd]` takes `f` of the word at `b`: a hit, wrong parity, a miss
(20_memory R246, R254, R256). -/
def CachedLoad (s : State) (o : Result) (rd : RegNum) (b : Word) (f : Word → Word) : Prop :=
  let m := s.wordAt b.toNat
  let c := s.dcache
  let hit := hitWay .dcache c b
  (∀ w, hit = some w → badTag s .dcache b w = false → badWord s .dcache b w = false →
    ∃ l, UsedLast { c with lru := l } .dcache b w ∧
      Completes o { s with dcache := { c with lru := l } } rd (f (c.word (dataKey w b)).val)) ∧
  (∀ w, hit = some w → badTag s .dcache b w = true ∨ badWord s .dcache b w = true →
    counterBelowMax .dcache (badTag s .dcache b w) s.dev.ccr3 →
    ∃ t, o = .next t ∧ WritesReg s t rd (f m) ∧ Holds t .dcache b w m ∧ badTag t .dcache b w = false ∧
      OtherLinesKept s t .dcache b w [b] ∧
      t = { s with
            ireg := t.ireg, dcache := t.dcache, pc := s.npc, npc := s.npc + 4
            dev := { s.dev with ccr3 := countedError .dcache (badTag s .dcache b w) s.dev.ccr3 } }) ∧
  (hit = none → s.dev.ccr.getLsbD 3 = true → CacheFills s o rd b (f m)) ∧
  (hit = none → s.dev.ccr.getLsbD 3 = false → Completes o s rd (f m))

/-- The outcome of an alternate-space load with ASI 0 to 4 or 7, which read memory, or 8 to 11, which are normal (20_memory R248,
40 R352). -/
def AlternateLoad (s : State) (o : Result) (rd : RegNum) (b : Word) (f : Word → Word) (asi : BitVec 8) : Prop :=
  let m := s.wordAt b.toNat
  let hit := hitWay .dcache s.dcache b
  (asi.extractLsb' 0 4 ∈ ([0, 1, 2, 3, 4, 7] : List (BitVec 4)) → hit ≠ none → CacheFills s o rd b (f m)) ∧
  (asi.extractLsb' 0 4 ∈ ([0, 1, 2, 3] : List (BitVec 4)) → hit = none →
    if s.dev.ccr.getLsbD 3 then CacheFills s o rd b (f m) else Completes o s rd (f m)) ∧
  (asi.extractLsb' 0 4 ∈ ([4, 7] : List (BitVec 4)) → hit = none → Completes o s rd (f m)) ∧
  (asi.extractLsb' 0 4 ∈ ([8, 9, 10, 11] : List (BitVec 4)) → CachedLoad s o rd b f)

/-- The outcome of a normal doubleword load through the data cache at `a`, which finds no wrong parity: each word is the cached copy or
memory; a cache that is enabled holds both words then, one that is frozen no more than before (20_memory R203, R242, R246). -/
def CachedLoadPair (s : State) (o : Result) (rd : RegNum) (a : Word) : Prop :=
  let c := s.dcache
  ∃ t w, o = .next t ∧ WritesPair s t rd (cachedWord s a) (cachedWord s (a + 4)) ∧ OtherLinesKept s t .dcache a w [a, a + 4] ∧
    (∀ x ∈ [a, a + 4],
      (∀ k, hitWay .dcache c x = some k → hitWay .dcache t.dcache x = some k ∧ t.dcache.word (dataKey k x) = c.word (dataKey k x)) ∧
      (hitWay .dcache c x = none →
        if s.dev.ccr.getLsbD 3 then Holds t .dcache x w (s.wordAt x.toNat) else hitWay .dcache t.dcache x = none)) ∧
    (s.dev.ccr.getLsbD 3 = false → t.dcache = { c with lru := t.dcache.lru }) ∧
    t = { s with ireg := t.ireg, dcache := t.dcache, pc := s.npc, npc := s.npc + 4 }

/-- From `s` to `t` the bytes of the list, which begin with byte `k` of the word at `b`, go into the copy that the data cache holds of
that word; nothing is allocated (20_memory R247). A word, or a part of a word with good parity, leaves good parity. -/
def UpdatesCopy (s t : State) (b : Word) (k : Nat) (l : List Byte) : Prop :=
  let c := s.dcache
  (hitWay .dcache c b = none → t.dcache = c) ∧
    ∀ w, hitWay .dcache c b = some w →
      let old := c.word (dataKey w b)
      let new := t.dcache.word (dataKey w b)
      hitWay .dcache t.dcache b = some w ∧ OtherLinesKept s t .dcache b w [b] ∧ (∀ i, t.dcache.tag i = c.tag i) ∧
        UsedLast t.dcache .dcache b w ∧
        (∀ j < 4, byteOf new.val j = if h : k ≤ j ∧ j < k + l.length then l[j - k] else byteOf old.val j) ∧
        (l.length = 4 ∨ old = CacheWord.clean old.val → new = CacheWord.clean new.val)

/-- The outcome of a store of the bytes of the list at `a`, with the data cache on (20_memory R206, R247). -/
def CachedStore (s : State) (o : Result) (a : Word) (l : List Byte) : Prop :=
  ∃ t, o = .next t ∧ StoresBytes s t a l ∧ StoresFlips s t a l.length ∧ UpdatesCopy s t (wordBase a) (a.toNat % 4) l ∧
    t = { s with mem := t.mem, memFlip := t.memFlip, dcache := t.dcache, pc := s.npc, npc := s.npc + 4 }

/-- The same for two words `hi` and `lo` at `a` and `a + 4`. -/
def CachedStorePair (s : State) (o : Result) (a hi lo : Word) : Prop :=
  let hit (x : Word) := hitWay .dcache s.dcache x
  ∃ t, o = .next t ∧ StoresBytes s t a (bytesOfWord hi ++ bytesOfWord lo) ∧ StoresFlips s t a 8 ∧
    (hit a = none → hit (a + 4) = none → t.dcache = s.dcache) ∧
    (∀ p ∈ [(a, hi), (a + 4, lo)],
      (hit p.1 = none → hitWay .dcache t.dcache p.1 = none) ∧ ∀ w, hit p.1 = some w → Holds t .dcache p.1 w p.2) ∧
    (∀ i, t.dcache.tag i = s.dcache.tag i) ∧
    (∀ i, (∀ x ∈ [a, a + 4], ∀ w, hit x = some w → i ≠ dataKey w x) → t.dcache.word i = s.dcache.word i) ∧
    t = { s with mem := t.mem, memFlip := t.memFlip, dcache := t.dcache, pc := s.npc, npc := s.npc + 4 }

/-- The outcome of an atomic that reads the word at `b = wordBase a` through the data cache, without wrong parity, gives `r[rd]` the
value `v` and stores the bytes of the list at `a`: both as the load and the store alone (20_memory R246, R247, 40 R373, R375). -/
def CachedAtomic (s : State) (o : Result) (rd : RegNum) (a v : Word) (l : List Byte) : Prop :=
  let c := s.dcache
  let b := wordBase a
  ∃ t w, o = .next t ∧ WritesReg s t rd v ∧ StoresBytes s t a l ∧ StoresFlips s t a l.length ∧ OtherLinesKept s t .dcache b w [b] ∧
    (∀ k, hitWay .dcache c b = some k →
      k = w ∧ hitWay .dcache t.dcache b = some w ∧
        ∀ j < 4, byteOf (t.dcache.word (dataKey w b)).val j =
          if h : a.toNat % 4 ≤ j ∧ j < a.toNat % 4 + l.length then l[j - a.toNat % 4] else byteOf (c.word (dataKey w b)).val j) ∧
    (hitWay .dcache c b = none → if s.dev.ccr.getLsbD 3 then Holds t .dcache b w (t.wordAt b.toNat) else t.dcache = c) ∧
    t = { s with mem := t.mem, memFlip := t.memFlip, ireg := t.ireg, dcache := t.dcache, pc := s.npc, npc := s.npc + 4 }

/-- Flushing cache `c` is all that happens (20_memory R249): every tag reads 0. -/
def FlushesTo (u t : State) (c : CacheId) : Prop :=
  (∀ k, ((t.getCache c).tag k).val = 0) ∧ t.getCache c = { u.getCache c with tags := (t.getCache c).tags } ∧
    t = { u.setCache c (t.getCache c) with ireg := t.ireg, pc := u.npc, npc := u.npc + 4 }

/-! ### Classes of instructions -/

/-- The instructions that raise privileged_instruction in user mode whatever else holds (60 R647, 30 R321; RETT has its own rule). -/
def privileged : Instr → Bool
  | .rdpsr _ | .rdwim _ | .rdtbr _ | .wrpsr _ _ | .wrwim _ _ | .wrtbr _ _ => true
  | .rdasr _ n | .wrasr n _ _ => Machine.asrImplemented n
  | .lda _ _ _ | .lduba _ _ _ | .lduha _ _ _ | .ldda _ _ _ | .ldsba _ _ _ | .ldsha _ _ _ => true
  | .sta _ _ _ | .stba _ _ _ | .stha _ _ _ | .stda _ _ _ | .ldstuba _ _ _ | .swapa _ _ _ => true
  | .stdfq _ _ | .stdcq _ _ _ => true
  | _ => false

/-- The floating-point instructions, which test PSR.EF first (44 R560; STDFQ is privileged before). -/
def floating : Instr → Bool
  | .fbn _ _ | .fbne _ _ | .fblg _ _ | .fbul _ _ | .fbl _ _ | .fbug _ _ | .fbg _ _ | .fbu _ _ => true
  | .fba _ _ | .fbe _ _ | .fbue _ _ | .fbge _ _ | .fbuge _ _ | .fble _ _ | .fbule _ _ | .fbo _ _ => true
  | .fmovs _ _ | .fnegs _ _ | .fabss _ _ | .fsqrts _ _ | .fsqrtd _ _ | .fsqrtq _ _ => true
  | .fadds _ _ _ | .faddd _ _ _ | .faddq _ _ _ | .fsubs _ _ _ | .fsubd _ _ _ | .fsubq _ _ _ => true
  | .fmuls _ _ _ | .fmuld _ _ _ | .fmulq _ _ _ | .fdivs _ _ _ | .fdivd _ _ _ | .fdivq _ _ _ => true
  | .fsmuld _ _ _ | .fdmulq _ _ _ => true
  | .fitos _ _ | .fdtos _ _ | .fqtos _ _ | .fitod _ _ | .fstod _ _ | .fqtod _ _ => true
  | .fitoq _ _ | .fstoq _ _ | .fdtoq _ _ | .fstoi _ _ | .fdtoi _ _ | .fqtoi _ _ => true
  | .fcmps _ _ | .fcmpd _ _ | .fcmpq _ _ | .fcmpes _ _ | .fcmped _ _ | .fcmpeq _ _ => true
  | .ldf _ _ _ | .lddf _ _ _ | .ldfsr _ _ | .stf _ _ _ | .stdf _ _ _ | .stfsr _ _ => true
  | _ => false

/-- The quad-precision operations, which the FPU does not implement (44 R595). -/
def quad : Instr → Bool
  | .fsqrtq _ _ | .faddq _ _ _ | .fsubq _ _ _ | .fmulq _ _ _ | .fdivq _ _ _ | .fdmulq _ _ _ => true
  | .fqtos _ _ | .fqtod _ _ | .fitoq _ _ | .fstoq _ _ | .fdtoq _ _ | .fqtoi _ _ | .fcmpq _ _ | .fcmpeq _ _ => true
  | _ => false

/-- The operations with an odd register number in a double-precision field (44 R561). -/
def oddDouble : Instr → Bool
  | .fsqrtd rd rs2 => oddReg rs2 || oddReg rd
  | .faddd rd rs1 rs2 | .fsubd rd rs1 rs2 | .fmuld rd rs1 rs2 | .fdivd rd rs1 rs2 => oddReg rs1 || oddReg rs2 || oddReg rd
  | .fsmuld rd _ _ | .fitod rd _ | .fstod rd _ => oddReg rd
  | .fdtos _ rs2 | .fdtoi _ rs2 => oddReg rs2
  | .fcmpd rs1 rs2 | .fcmped rs1 rs2 => oddReg rs1 || oddReg rs2
  | _ => false

/-- The coprocessor instructions (30 R321). -/
def coprocessor : Instr → Bool
  | .cbccc _ _ _ | .cpop1 _ _ _ _ | .cpop2 _ _ _ _ | .ldc _ _ _ | .ldcsr _ _ _ | .lddc _ _ _ => true
  | .stc _ _ _ | .stcsr _ _ _ | .stdcq _ _ _ | .stdc _ _ _ => true
  | _ => false

/-! ### What one memory access may touch -/

/-- The part of the state no memory access of the IU changes while the DSU is not in debug mode: the registers of the IU and the FPU
(20_memory R206). -/
structure Cpu where
  ireg : Vector RegWord 136
  freg : Vector RegWord 32
  pc : Word
  npc : Word
  psr : Psr
  wim : BitVec 8
  tba : BitVec 20
  tt : BitVec 8
  y : Word
  asr16 : Asr16
  asr17 : Word
  asr18 : Word
  wp : Vector Watchpoint 4
  fsr : Fsr
  annul : Bool
  debugMode : Bool
  trapped : Bool
  clk : Nat
  pins : Pins
  env : List EnvStep
  deriving DecidableEq, Repr

def State.cpu (s : State) : Cpu :=
  { ireg := s.ireg, freg := s.freg, pc := s.pc, npc := s.npc, psr := s.psr, wim := s.wim, tba := s.tba, tt := s.tt, y := s.y
    asr16 := s.asr16, asr17 := s.asr17, asr18 := s.asr18, wp := s.wp, fsr := s.fsr, annul := s.annul, debugMode := s.debugMode
    trapped := s.trapped, clk := s.clk, pins := s.pins, env := s.env }

/-! ### The invariant of every step -/

/-- Both lists of memory are in their canonical form (log entry 10), and pc and npc are word addresses. -/
def Inv (s : State) : Prop := Memory.wf s = true ∧ s.pc.extractLsb' 0 2 = 0 ∧ s.npc.extractLsb' 0 2 = 0

end Sys2Proof.Machine
end

