-- ==== Sys2Proof/WellFormed.lean ====
section
/-! DEFINITION. Which instructions have a word of their own (30_encoding R306, R312). -/

namespace Sys2Proof

/-- A SETHI with rd = 0 and imm22 = 0 is NOP (30_encoding R305); RDASR and WRASR of number 0 are RDY and WRY, and RDASR 15 with
rd = 0 is STBAR (30_encoding R312). Every other operand is a bit field of exactly the width its encoding has. -/
def Instr.wellFormed : Instr → Bool
  | .sethi rd imm22 => !(rd == 0 && imm22 == 0)
  | .rdasr rd n => !(n == 0) && !(n == 15 && rd == 0)
  | .wrasr n _ _ => !(n == 0)
  | _ => true

end Sys2Proof
end

