-- ==== Sys2Proof/Certificates/Slice0/Obligations.lean ====
section
/-! DEFINITION. The statements for the provers. Each docstring says which rule it formalises; OBLIGATIONS.json lists them. -/

open Sys2Proof Sys2Proof.Machine

/-! ### Reset, invariant, isolation -/

/-- Every value that 10_state R85 gives for reset, and none that a log entry chose. -/
def Obligations.ResetState : Prop :=
  let s := State.reset
  let m1 := s.dev.mcfg1
  let m2 := s.dev.mcfg2
  let e := s.dev.mecfg1
  (s.pc = 0 ∧ s.npc = 4 ∧ psrWord s.psr = 0xB3021080#32 ∧ s.wim = 0 ∧ tbrWord s.tba s.tt = 0 ∧ s.y = 0 ∧
    s.asr16.cb = 0b1111#4 ∧ (asr16Word s.asr16).extractLsb' 23 5 = 0 ∧
    (∀ k : Fin 4, (s.wp.get k).ifEn = false ∧ (s.wp.get k).dl = false ∧ (s.wp.get k).ds = false) ∧
    s.fsr.tem = 0 ∧ s.fsr.cexc = 0 ∧ fsrWord s.fsr &&& 0x000E3000#32 = 0) ∧
  (s.dev.ccr.extractLsb' 0 4 = 0 ∧ s.dev.ccr.extractLsb' 21 2 = 0 ∧ s.dev.ccr1 = 0x20000000#32 ∧ s.dev.ccr2 = 0 ∧ s.dev.ccr3 = 0) ∧
  (m1.extractLsb' 20 4 = 0xF#4 ∧ m1.extractLsb' 12 5 = 31#5 ∧ m1.extractLsb' 0 5 = 31#5 ∧ bit m1 26 = false ∧ bit m1 25 = false ∧
    bit m1 19 = false ∧ bit m1 11 = false ∧ m1.extractLsb' 8 2 = Config.resetPio.extractLsb' 0 2) ∧
  (m2.extractLsb' 15 4 = 0xF#4 ∧ m2.extractLsb' 0 4 = 0xF#4 ∧ bit m2 14 = false ∧ bit m2 13 = false) ∧
  (e.extractLsb' 27 5 = 0 ∧ bit e 19 = false ∧ bit e 26 = Config.resetPio.getLsbD 2 ∧ bit e 22 = true ∧ bit e 20 = false ∧
    bit e 18 = false ∧ bit e 21 = false ∧ e.extractLsb' 14 4 = Config.resetRombsd ∧ e.extractLsb' 8 2 = 0b11#2) ∧
  (s.dev.ilevelMask.extractLsb' 1 15 = 0 ∧ s.dev.ipend = 0 ∧ s.dev.iforce = 0) ∧
  (bit s.dev.tim1.ctrl 0 = false ∧ bit s.dev.tim2.ctrl 0 = false ∧ bit s.dev.tim1.ctrl 4 = false ∧ s.dev.pscRld.extractLsb' 0 10 = 0x3FF#10 ∧
    s.dev.wdog.extractLsb' 0 24 = 0xFFFFFF#24)

/-- The invariant holds at reset. -/
def Obligations.ResetInv : Prop := Sys2Proof.Machine.Inv State.reset

/-- Every step from any state that meets the invariant keeps it: both memory lists stay canonical, pc and npc stay word addresses
(30 R300, 42 R470, R477, R478, 60 R640; log entry 10). -/
def Obligations.StepKeepsInv : Prop := ∀ s t, Sys2Proof.Machine.Inv s → step s = .next t → Sys2Proof.Machine.Inv t

/-- An instruction executed in user mode either traps or leaves S, ET, PS, PIL, WIM, TBR, ASR16 (apart from the error count), ASR17,
ASR18 and the watchpoints as they were (60 R647). That the ASRs and the watchpoints are privileged is a choice of the spec, parameter
ASR_PRIVILEGED (log entry 25; 43 R520, 92 D29). -/
def Obligations.UserModeKeepsPrivileged : Prop :=
  ∀ i s t, s.psr.s = false → s.debugMode = false → exec i s = .next t → t.trapped = true ∨
    (t.psr.s = false ∧ t.psr.et = s.psr.et ∧ t.psr.ps = s.psr.ps ∧ t.psr.pil = s.psr.pil ∧ t.psr.ef = s.psr.ef ∧
      t.psr.res = s.psr.res ∧ t.wim = s.wim ∧ t.tba = s.tba ∧ t.tt = s.tt ∧ t.asr16.cb = s.asr16.cb ∧ t.asr16.tcb = s.asr16.tcb ∧
      t.asr17 = s.asr17 ∧ t.asr18 = s.asr18 ∧ t.wp = s.wp)

/-! ### Encoding -/

/-- Decoding the word of a well-formed instruction gives it back, with every operand (30 R301 to R312). -/
def Obligations.DecodeEncode : Prop := ∀ i : Instr, i.wellFormed = true → decode (encode i) = .ok i

/-- Every instruction the decoder gives is well-formed (30 R305, R306, R312). -/
def Obligations.DecodeWellFormed : Prop := ∀ w i, decode w = .ok i → i.wellFormed = true

/-- A few words of the spec's examples, written out (30, sections 1 to 4; 40 to 44, each rule's encoding and example). Every op2, op3 and
opf number these words fix, SAVE's op3 apart, is one the spec presumes from general knowledge (R301 to R312) and the model follows (log
entry 33). -/
def Obligations.DecodeWords : Prop :=
  decode 0x40000040#32 = .ok (.call 0x40) ∧ decode 0x111FFFFF#32 = .ok (.sethi 8 0x1FFFFF) ∧ decode 0x1CBFFFFF#32 = .ok (.bpos false 0x3FFFFF) ∧
    decode 0x03800004#32 = .ok (.fbne false 4) ∧ decode 0x9004200F#32 = .ok (.add 8 16 (.imm 15)) ∧
    decode 0x912C2004#32 = .ok (.sll 8 16 (.imm 4)) ∧ decode 0x9DE3BF90#32 = .ok (.save 14 14 (.imm 0x1F90)) ∧
    decode 0x81C7E008#32 = .ok (.jmpl 0 31 (.imm 8)) ∧ decode 0x91D02004#32 = .ok (.ta 0 (.imm 4)) ∧
    decode 0xA380000A#32 = .ok (.wrasr 17 0 (.reg 10)) ∧ decode 0xD2820180#32 = .ok (.lda 9 8 (.reg 0x0C 0)) ∧
    decode 0xC53A2008#32 = .ok (.stdf 2 8 (.imm 8)) ∧ decode 0x89A009C2#32 = .ok (.fdivd 4 0 2) ∧ decode 0x81A80A21#32 = .ok (.fcmps 0 1)

/-- A word with an unassigned op2 or op3 raises illegal_instruction; one with an unassigned opf of FPop1 or FPop2 raises fp_disabled
with EF = 0, else fp_exception with ftt = 3 (30 R320). Which numbers are assigned is presumed (log entry 33), and that unassigned ones trap
in this way is a choice of the spec (92 D24, log entry 33). -/
def Obligations.UnassignedWordsTrap : Prop :=
  ∀ w s,
    (((opField w = 0 ∧ op2Field w ∈ [1, 3, 5]) ∨
        (opField w = 2 ∧ op3Field w ∈ [0x09, 0x0D, 0x19, 0x1D, 0x2C, 0x2D, 0x2E, 0x2F]) ∨
        (opField w = 3 ∧ op3Field w ∈ [0x08, 0x0B, 0x0C, 0x0E, 0x18, 0x1B, 0x1C, 0x1E, 0x22, 0x28, 0x29, 0x2A, 0x2B, 0x2C, 0x2D, 0x2E,
          0x2F, 0x32, 0x38, 0x39, 0x3A, 0x3B, 0x3C, 0x3D, 0x3E, 0x3F])) →
      NoInjection s → CanTrap s ttIllegal → Traps (execWord w s exec) s ttIllegal) ∧
    (opField w = 2 →
      ((op3Field w = 0x34 ∧ opf w ∉ [0x001, 0x005, 0x009, 0x029, 0x02A, 0x02B, 0x041, 0x042, 0x043, 0x045, 0x046, 0x047, 0x049, 0x04A, 0x04B,
          0x04D, 0x04E, 0x04F, 0x069, 0x06E, 0x0C4, 0x0C6, 0x0C7, 0x0C8, 0x0C9, 0x0CB, 0x0CC, 0x0CD, 0x0CE, 0x0D1, 0x0D2, 0x0D3]) ∨
        (op3Field w = 0x35 ∧ opf w ∉ [0x051, 0x052, 0x053, 0x055, 0x056, 0x057])) →
      NoInjection s →
      (s.psr.ef = false → CanTrap s ttFpDisabled → Traps (execWord w s exec) s ttFpDisabled) ∧
      (s.psr.ef = true → watchFetch s s.pc = false → CanTrap s ttFpException →
        Traps (execWord w s exec) { s with fsr := { s.fsr with ftt := 3 } } ttFpException))

/-! ### Stepping, traps, interrupts -/

/-- A step runs the instruction that the word at pc decodes to, then the boundary: trace lines, clocks, events, interrupt inputs
(60 R621). -/
def Obligations.StepRunsInstruction : Prop :=
  ∀ s i, Runs s → PlainFetch s.ready → decode (s.ready.wordAt s.ready.pc.toNat) = .ok i →
    step s = stepEnds (s.ready.wordAt s.ready.pc.toNat) s.ready (exec i s.ready)

/-- bp_IRL is the largest requesting interrupt of level 1, else the largest requesting one, else 0 (60 R662). That a forced interrupt
passes through the mask, as a pending one does, is the spec's own reading (R662, 93 I52). -/
def Obligations.InterruptSelection : Prop :=
  ∀ d : Dev,
    let req (n : Nat) : Prop := 1 ≤ n ∧ n ≤ 15 ∧ (d.ipend.getLsbD n = true ∨ d.iforce.getLsbD n = true) ∧ d.ilevelMask.getLsbD n = true
    let high (n : Nat) : Prop := req n ∧ d.ilevelMask.getLsbD (16 + n) = true
    ((∃ n, high n) → high (bpIrl d) ∧ ∀ n, high n → n ≤ bpIrl d) ∧
      ((¬∃ n, high n) → (∃ n, req n) → req (bpIrl d) ∧ ∀ n, req n → n ≤ bpIrl d) ∧ ((¬∃ n, req n) → bpIrl d = 0)

/-- Trap entry: with ET = 1, ET, PS, S, CWP, r[17], r[18], tt, pc and npc change and nothing else; an interrupt also acknowledges
itself, in IFORCE or IPEND, and is accepted exactly when ET = 1 and bp_IRL is above PIL; a trap that the DSU takes over enters debug
mode and does none of it (60 R640, R660, R663). `f` is what the rule of a trapping FPop writes into the FSR; CCR changes only where a
cache is set to freeze (20_memory R251), and register-file injection is off (R262). That interrupt 15 can be masked too is the model's
choice for parameter IRL15_NONMASKABLE (log entry 25). -/
def Obligations.TrapEntry : Prop :=
  ∀ s, NoInjection s →
    (∀ tt (f : Fsr), CanTrap s tt →
      EntersTrap { s with fsr := f } (trapState s (fun t => { t with fsr := f }) tt) tt ∧ EntersTrap s (trapState s id tt) tt) ∧
    (interruptTaken s = true ↔ s.psr.et = true ∧ s.psr.pil.toNat < bpIrl s.dev) ∧
    (interruptTaken s = true →
      let n := bpIrl s.dev
      let tt := BitVec.ofNat 8 (0x10 + n)
      let u := takeInterrupt s
      s.psr.et = true ∧ s.psr.pil.toNat < n ∧ 1 ≤ n ∧ n ≤ 15 ∧
        (debugOnTrap s tt = false →
          EntersTrap { s with dev := u.dev } u tt ∧ u.dev = { s.dev with ipend := u.dev.ipend, iforce := u.dev.iforce, ccr := u.dev.ccr } ∧
          (bit s.dev.ccr 4 = false → bit s.dev.ccr 5 = false → u.dev.ccr = s.dev.ccr) ∧
          (∀ k, u.dev.iforce.getLsbD k = (s.dev.iforce.getLsbD k && decide (k ≠ n))) ∧
          ∀ k, u.dev.ipend.getLsbD k = (s.dev.ipend.getLsbD k && (decide (k ≠ n) || s.dev.iforce.getLsbD n)))) ∧
    ∀ tt,
      let turned (t : State) : Prop := t = { s with debugMode := true, trapped := true, dsu := t.dsu, out := t.out }
      debugOnTrap s tt = true →
        (∀ eff, turned (trapState s eff tt)) ∧ (tt = BitVec.ofNat 8 (0x10 + bpIrl s.dev) → turned (takeInterrupt s))

/-- A precise trap with ET = 0 stops the IU in error mode: pc, npc, PSR, tt, the registers and memory keep their values, and every
later step leaves the IU alone while no event comes from outside (60 R646), and only the model clock goes on (70 R840), by the one cycle
that log entry 13 chooses. -/
def Obligations.ErrorMode : Prop :=
  (∀ s tt, s.psr.et = false → debugOnTrap s tt = false →
    raise s tt = .next { s with trapped := true, errorMode := true }) ∧
  ∀ s t, s.errorMode = true → s.env = [] → s.dsu.breakReq = false → step s = .next t →
    t.errorMode = true ∧ t.cpu = { s.cpu with clk := s.clk + 1 } ∧ t.mem = s.mem

/-! ### Integer instructions -/

/-- AND, OR, XOR, ANDN, ORN, XNOR (41 R403, R405, R407, R409, R411, R413). -/
def Obligations.LogicResults : Prop :=
  ∀ s rd rs1 op2, Plain s →
    let a := s.r rs1
    let b := s.operand2 op2
    Completes (exec (.and rd rs1 op2) s) s rd (a &&& b) ∧ Completes (exec (.andn rd rs1 op2) s) s rd (a &&& ~~~b) ∧
      Completes (exec (.or rd rs1 op2) s) s rd (a ||| b) ∧ Completes (exec (.orn rd rs1 op2) s) s rd (a ||| ~~~b) ∧
      Completes (exec (.xor rd rs1 op2) s) s rd (a ^^^ b) ∧ Completes (exec (.xnor rd rs1 op2) s) s rd (~~~(a ^^^ b))

/-- The cc forms: N from bit 31, Z, V = C = 0 (41 R402, R404, R406, R408, R410, R412, R414). -/
def Obligations.LogicCcResults : Prop :=
  ∀ s rd rs1 op2, Plain s →
    let a := s.r rs1
    let b := s.operand2 op2
    let done (o : Result) (v : Word) : Prop :=
      Completes o { s with psr := { s.psr with n := v.getLsbD 31, z := decide (v = 0), v := false, c := false } } rd v
    done (exec (.andcc rd rs1 op2) s) (a &&& b) ∧ done (exec (.andncc rd rs1 op2) s) (a &&& ~~~b) ∧
      done (exec (.orcc rd rs1 op2) s) (a ||| b) ∧ done (exec (.orncc rd rs1 op2) s) (a ||| ~~~b) ∧
      done (exec (.xorcc rd rs1 op2) s) (a ^^^ b) ∧ done (exec (.xnorcc rd rs1 op2) s) (~~~(a ^^^ b))

/-- SLL, SRL, SRA by n = b[4:0]: a * 2^n truncated, a / 2^n unsigned, floor of the signed a / 2^n (41 R415 to R417). -/
def Obligations.ShiftResults : Prop :=
  ∀ s rd rs1, Plain s →
    let a := s.r rs1
    let done (cnt : ShiftArg) (n : Nat) : Prop :=
      Completes (exec (.sll rd rs1 cnt) s) s rd (BitVec.ofNat 32 (a.toNat * 2 ^ n)) ∧
        Completes (exec (.srl rd rs1 cnt) s) s rd (BitVec.ofNat 32 (a.toNat / 2 ^ n)) ∧
        Completes (exec (.sra rd rs1 cnt) s) s rd (BitVec.ofInt 32 (a.toInt / 2 ^ n))
    (∀ rs2, done (.reg rs2) ((s.r rs2).toNat % 32)) ∧ ∀ k, done (.imm k) k.toNat

/-- ADD, ADDX, SUB, SUBX (41 R418, R420, R424, R426). -/
def Obligations.AddSubResults : Prop :=
  ∀ s rd rs1 op2, Plain s →
    let a := s.r rs1
    let b := s.operand2 op2
    let c := BitVec.ofNat 32 s.psr.c.toNat
    Completes (exec (.add rd rs1 op2) s) s rd (a + b) ∧ Completes (exec (.addx rd rs1 op2) s) s rd (a + b + c) ∧
      Completes (exec (.sub rd rs1 op2) s) s rd (a - b) ∧ Completes (exec (.subx rd rs1 op2) s) s rd (a - b - c)

/-- ADDcc, ADDXcc, SUBcc, SUBXcc: V says the signed result is out of range, C is the carry or borrow (10_state R27, 41 R402, R419,
R421, R425, R427). -/
def Obligations.AddSubCcResults : Prop :=
  ∀ s rd rs1 op2, Plain s →
    let a := s.r rs1
    let b := s.operand2 op2
    let c := s.psr.c.toNat
    let done (o : Result) (v : Word) (exact : Int) (carry : Prop) : Prop := ∃ x, IccOf x v exact carry ∧ Completes o (setIcc s x) rd v
    done (exec (.addcc rd rs1 op2) s) (a + b) (a.toInt + b.toInt) (2 ^ 32 ≤ a.toNat + b.toNat) ∧
      done (exec (.addxcc rd rs1 op2) s) (a + b + BitVec.ofNat 32 c) (a.toInt + b.toInt + c) (2 ^ 32 ≤ a.toNat + b.toNat + c) ∧
      done (exec (.subcc rd rs1 op2) s) (a - b) (a.toInt - b.toInt) (a.toNat < b.toNat) ∧
      done (exec (.subxcc rd rs1 op2) s) (a - b - BitVec.ofNat 32 c) (a.toInt - b.toInt - c) (a.toNat < b.toNat + c)

/-- TADDcc, TSUBcc: as ADDcc and SUBcc, but V is the tag_overflow event. TADDccTV, TSUBccTV: the same without the event; with it,
tag_overflow and `r[rd]`, icc unchanged (41 R422, R423, R428, R429). -/
def Obligations.TaggedResults : Prop :=
  ∀ s rd rs1 op2, Plain s →
    let a := s.r rs1
    let b := s.operand2 op2
    let done (plain trapping : Instr) (v : Word) (exact : Int) (carry : Prop) : Prop :=
      let event : Prop := a.toNat % 4 ≠ 0 ∨ b.toNat % 4 ≠ 0 ∨ exact ≠ v.toInt
      ∃ x : Icc, x.n = v.msb ∧ (x.z = true ↔ v = 0) ∧ (x.v = true ↔ event) ∧ (x.c = true ↔ carry) ∧
        Completes (exec plain s) (setIcc s x) rd v ∧ (¬event → Completes (exec trapping s) (setIcc s x) rd v) ∧
        (event → CanTrap s ttTagOverflow → Traps (exec trapping s) s ttTagOverflow)
    done (.taddcc rd rs1 op2) (.taddcctv rd rs1 op2) (a + b) (a.toInt + b.toInt) (2 ^ 32 ≤ a.toNat + b.toNat) ∧
      done (.tsubcc rd rs1 op2) (.tsubcctv rd rs1 op2) (a - b) (a.toInt - b.toInt) (a.toNat < b.toNat)

/-- MULScc: one step on (N xor V) ++ a[31:1] and b or 0 by Y[0]; Y shifts right, a[0] entering (41 R430). -/
def Obligations.MulsccResult : Prop :=
  ∀ s rd rs1 op2, Plain s →
    let a := s.r rs1
    let o1 := (a >>> 1) + (if s.psr.n ≠ s.psr.v then 0x80000000#32 else 0)
    let o2 := if s.y.toNat % 2 = 1 then s.operand2 op2 else 0
    ∃ x, IccOf x (o1 + o2) (o1.toInt + o2.toInt) (2 ^ 32 ≤ o1.toNat + o2.toNat) ∧
      Completes (exec (.mulscc rd rs1 op2) s) { setIcc s x with y := (s.y >>> 1) ||| (a <<< 31) } rd (o1 + o2)

/-- UMUL, SMUL and the cc forms: Y and r[rd] hold the 64-bit product; N and Z of the cc forms come from the low word, V = C = 0
(41 R431 to R434). -/
def Obligations.MultiplyResults : Prop :=
  ∀ s rd rs1 op2, Plain s →
    let a := s.r rs1
    let b := s.operand2 op2
    let cc (lo : Word) : Icc := { n := lo.getLsbD 31, z := decide (lo = 0), v := false, c := false }
    (∃ hi lo : Word, hi.toNat * 2 ^ 32 + lo.toNat = a.toNat * b.toNat ∧
      Completes (exec (.umul rd rs1 op2) s) { s with y := hi } rd lo ∧
      Completes (exec (.umulcc rd rs1 op2) s) { setIcc s (cc lo) with y := hi } rd lo) ∧
    ∃ hi lo : Word, hi.toInt * 2 ^ 32 + lo.toNat = a.toInt * b.toInt ∧
      Completes (exec (.smul rd rs1 op2) s) { s with y := hi } rd lo ∧
      Completes (exec (.smulcc rd rs1 op2) s) { setIcc s (cc lo) with y := hi } rd lo

/-- UDIV, SDIV and the cc forms: the quotient truncated toward zero and saturated, V of the cc forms saying it was saturated; a zero
divisor traps (41 R435 to R438). That the signed forms test overflow on the truncated quotient is the spec's own decision (R436, 92 D20;
log entry 53). -/
def Obligations.DivideResults : Prop :=
  ∀ s rd rs1 op2, Plain s →
    let a := s.r rs1
    let b := s.operand2 op2
    let q : Nat := (s.y.toNat * 2 ^ 32 + a.toNat) / b.toNat
    let qs : Int := (s.y.toInt * 2 ^ 32 + a.toNat).tdiv b.toInt
    let cc (v : Word) (ovf : Bool) : Icc := { n := v.getLsbD 31, z := decide (v = 0), v := ovf, c := false }
    (b ≠ 0 →
      (∃ v : Word, v.toNat = min q (2 ^ 32 - 1) ∧ Completes (exec (.udiv rd rs1 op2) s) s rd v ∧
        Completes (exec (.udivcc rd rs1 op2) s) (setIcc s (cc v (decide (2 ^ 32 - 1 < q)))) rd v) ∧
      ∃ v : Word, v.toInt = max (-(2 ^ 31)) (min qs (2 ^ 31 - 1)) ∧ Completes (exec (.sdiv rd rs1 op2) s) s rd v ∧
        Completes (exec (.sdivcc rd rs1 op2) s) (setIcc s (cc v (decide (2 ^ 31 - 1 < qs ∨ qs < -(2 ^ 31))))) rd v) ∧
    (b = 0 → CanTrap s ttDivisionByZero →
      Traps (exec (.udiv rd rs1 op2) s) s ttDivisionByZero ∧ Traps (exec (.sdiv rd rs1 op2) s) s ttDivisionByZero ∧
        Traps (exec (.udivcc rd rs1 op2) s) s ttDivisionByZero ∧ Traps (exec (.sdivcc rd rs1 op2) s) s ttDivisionByZero)

/-- SETHI and NOP (41 R400, R401). -/
def Obligations.SethiNopResults : Prop :=
  ∀ s, watchFetch s s.pc = false → NoInjection s →
    (∀ rd imm22, Completes (exec (.sethi rd imm22) s) s rd (BitVec.ofNat 32 (imm22.toNat * 1024))) ∧ Completes (exec .nop s) s 0 0

/-! ### Control transfer -/

/-- The sixteen Bicc: the condition of each on N, Z, V, C, and the four lines of 42 R470 (42 R473, 30 R310). -/
def Obligations.BranchIccOutcomes : Prop :=
  ∀ s a d, watchFetch s s.pc = false → s.annul = false →
    let n := s.psr.n
    let z := s.psr.z
    let v := s.psr.v
    let c := s.psr.c
    let goes (i : Instr) (always taken : Bool) : Prop := Branches (exec i s) s always taken a (s.branchTo d)
    goes (.ba a d) true true ∧ goes (.bn a d) false false ∧ goes (.bne a d) false (!z) ∧ goes (.be a d) false z ∧
      goes (.bg a d) false (!(z || (n != v))) ∧ goes (.ble a d) false (z || (n != v)) ∧ goes (.bge a d) false (n == v) ∧
      goes (.bl a d) false (n != v) ∧ goes (.bgu a d) false (!(c || z)) ∧ goes (.bleu a d) false (c || z) ∧ goes (.bcc a d) false (!c) ∧
      goes (.bcs a d) false c ∧ goes (.bpos a d) false (!n) ∧ goes (.bneg a d) false n ∧ goes (.bvc a d) false (!v) ∧
      goes (.bvs a d) false v

/-- The sixteen FBfcc by the relations fcc 0 equal, 1 less, 2 greater, 3 unordered (42 R474, 30 R311, 10_state R39). -/
def Obligations.BranchFccOutcomes : Prop :=
  ∀ s a d, watchFetch s s.pc = false → s.annul = false → s.psr.ef = true →
    let f := s.fsr.fcc
    let goes (i : Instr) (always : Bool) (l : List (BitVec 2)) : Prop :=
      Branches (exec i s) s always (decide (f ∈ l)) a (s.branchTo d)
    goes (.fba a d) true [0, 1, 2, 3] ∧ goes (.fbn a d) false [] ∧ goes (.fbu a d) false [3] ∧ goes (.fbg a d) false [2] ∧
      goes (.fbug a d) false [2, 3] ∧ goes (.fbl a d) false [1] ∧ goes (.fbul a d) false [1, 3] ∧ goes (.fblg a d) false [1, 2] ∧
      goes (.fbne a d) false [1, 2, 3] ∧ goes (.fbe a d) false [0] ∧ goes (.fbue a d) false [0, 3] ∧ goes (.fbge a d) false [0, 2] ∧
      goes (.fbuge a d) false [0, 2, 3] ∧ goes (.fble a d) false [0, 1] ∧ goes (.fbule a d) false [0, 1, 3] ∧
      goes (.fbo a d) false [0, 1, 2]

/-- The 136 registers of the file: the eight globals first, then W[0..127], of which `r[8..31]` of window CWP are the 24 from
CWP * 16 on, modulo 128, so the ins of a window are the outs of the next one (10_state R21). SAVE and RESTORE: the sum of old-window
registers in `r[rd]` of the new window, or a window trap with nothing changed (42 R471, R472). -/
def Obligations.WindowResults : Prop :=
  (∀ (s : State) (n : RegNum),
    let inWindow (w : BitVec 3) : Word := { s with psr := { s.psr with cwp := w } }.r n
    (n = 0 → s.r n = 0) ∧ (∀ h : n.toNat < 8, n ≠ 0 → s.r n = (s.ireg.get ⟨n.toNat, by omega⟩).data) ∧
      (8 ≤ n.toNat → s.r n = (s.ireg.get ⟨8 + (s.psr.cwp.toNat * 16 + (n.toNat - 8)) % 128, by omega⟩).data) ∧
      (24 ≤ n.toNat → ∀ w, inWindow w = { s with psr := { s.psr with cwp := w + 1 } }.r (n - 16))) ∧
  ∀ s rd rs1 op2, Plain s →
    let res := s.r rs1 + s.operand2 op2
    let done (o : Result) (w : BitVec 3) (tt : BitVec 8) : Prop :=
      (s.wim.getLsbD w.toNat = false → Completes o { s with psr := { s.psr with cwp := w } } rd res) ∧
        (s.wim.getLsbD w.toNat = true → CanTrap s tt → Traps o s tt)
    done (exec (.save rd rs1 op2) s) (s.psr.cwp - 1) ttWindowOverflow ∧ done (exec (.restore rd rs1 op2) s) (s.psr.cwp + 1) ttWindowUnderflow

/-- CALL and JMPL: the address of the instruction in `r[15]`, in `r[rd]`, and the delayed transfer; JMPL to an address that is no
multiple of 4 traps (42 R476, R477). -/
def Obligations.CallJmplResults : Prop :=
  ∀ s, Plain s →
    (∀ d, CompletesTo (exec (.call d) s) s 15 s.pc (s.pc + 4 * d.setWidth 32)) ∧
    ∀ rd rs1 op2,
      ((ea s rs1 op2).toNat % 4 = 0 → CompletesTo (exec (.jmpl rd rs1 op2) s) s rd s.pc (ea s rs1 op2)) ∧
      ((ea s rs1 op2).toNat % 4 ≠ 0 → CanTrap s ttNotAligned → Traps (exec (.jmpl rd rs1 op2) s) s ttNotAligned)

/-- RETT in a trap handler: CWP + 1, S from PS, ET = 1, the delayed transfer, nothing else. With ET = 1 it traps; with ET = 0 and a
failing check it writes tt and stops in error mode (42 R478, 60 R646). -/
def Obligations.RettResults : Prop :=
  ∀ s rs1 op2, Plain s →
    let target := ea s rs1 op2
    let up := s.psr.cwp + 1
    let stops (tt : BitVec 8) : Prop :=
      debugOnTrap s tt = false → exec (.rett rs1 op2) s = .next { s with trapped := true, errorMode := true, tt := tt }
    (s.psr.et = false → s.psr.s = true → s.wim.getLsbD up.toNat = false → target.toNat % 4 = 0 →
      exec (.rett rs1 op2) s =
        .next { s with psr := { s.psr with cwp := up, s := s.psr.ps, et := true }, pc := s.npc, npc := target }) ∧
    (s.psr.et = true → s.psr.s = false → CanTrap s ttPrivileged → Traps (exec (.rett rs1 op2) s) s ttPrivileged) ∧
    (s.psr.et = true → s.psr.s = true → CanTrap s ttIllegal → Traps (exec (.rett rs1 op2) s) s ttIllegal) ∧
    (s.psr.et = false → s.psr.s = false → stops 0x03) ∧
    (s.psr.et = false → s.psr.s = true → s.wim.getLsbD up.toNat = true → stops 0x06) ∧
    (s.psr.et = false → s.psr.s = true → s.wim.getLsbD up.toNat = false → target.toNat % 4 ≠ 0 → stops 0x07)

/-- The sixteen Ticc (42 R479, 30 R310). -/
def Obligations.TiccOutcomes : Prop :=
  ∀ s rs1 arg, Plain s →
    let n := s.psr.n
    let z := s.psr.z
    let v := s.psr.v
    let c := s.psr.c
    let goes (i : Instr) (cond : Bool) : Prop := TrapsIf (exec i s) s cond rs1 arg
    goes (.ta rs1 arg) true ∧ goes (.tn rs1 arg) false ∧ goes (.tne rs1 arg) (!z) ∧ goes (.te rs1 arg) z ∧
      goes (.tg rs1 arg) (!(z || (n != v))) ∧ goes (.tle rs1 arg) (z || (n != v)) ∧ goes (.tge rs1 arg) (n == v) ∧
      goes (.tl rs1 arg) (n != v) ∧ goes (.tgu rs1 arg) (!(c || z)) ∧ goes (.tleu rs1 arg) (c || z) ∧ goes (.tcc rs1 arg) (!c) ∧
      goes (.tcs rs1 arg) c ∧ goes (.tpos rs1 arg) (!n) ∧ goes (.tneg rs1 arg) n ∧ goes (.tvc rs1 arg) (!v) ∧ goes (.tvs rs1 arg) v

/-! ### State registers -/

/-- RDY in both modes; RDPSR, RDWIM, RDTBR and RDASR of the eleven ASRs in supervisor mode, field by field (43 R521 to R525,
10_state R26, R28, R29, R32 to R35). That ASR18 reads as a plain 32-bit register (R531, 92 D26; log entry 24) and that the reserved PSR
field reads as held (R26, 92 D5; log entry 53) are choices of the spec. -/
def Obligations.ReadStateRegisters : Prop :=
  ∀ s rd, watchFetch s s.pc = false → NoInjection s →
    Completes (exec (.rdy rd) s) s rd s.y ∧
    (s.psr.s = true →
      (∃ v : Word, Completes (exec (.rdpsr rd) s) s rd v ∧ v.extractLsb' 24 8 = 0xB3#8 ∧ v.getLsbD 23 = s.psr.n ∧ v.getLsbD 22 = s.psr.z ∧
        v.getLsbD 21 = s.psr.v ∧ v.getLsbD 20 = s.psr.c ∧ v.extractLsb' 14 6 = s.psr.res ∧ v.getLsbD 13 = false ∧
        v.getLsbD 12 = s.psr.ef ∧ v.extractLsb' 8 4 = s.psr.pil ∧ v.getLsbD 7 = true ∧ v.getLsbD 6 = s.psr.ps ∧
        v.getLsbD 5 = s.psr.et ∧ v.extractLsb' 0 5 = s.psr.cwp.setWidth 5) ∧
      Completes (exec (.rdwim rd) s) s rd (BitVec.ofNat 32 s.wim.toNat) ∧
      Completes (exec (.rdtbr rd) s) s rd (BitVec.ofNat 32 (s.tba.toNat * 4096 + s.tt.toNat * 16)) ∧
      Completes (exec (.rdasr rd 16) s) s rd (s.asr16.cb ++ 0#5 ++ s.asr16.tcb ++ s.asr16.cnt) ∧
      Completes (exec (.rdasr rd 17) s) s rd s.asr17 ∧ Completes (exec (.rdasr rd 18) s) s rd s.asr18 ∧
      ∀ k : Fin 4,
        Completes (exec (.rdasr rd (BitVec.ofNat 5 (24 + 2 * k.val))) s) s rd
          ((s.wp.get k).waddr ++ 0#1 ++ BitVec.ofBool (s.wp.get k).ifEn) ∧
        Completes (exec (.rdasr rd (BitVec.ofNat 5 (25 + 2 * k.val))) s) s rd
          ((s.wp.get k).wmask ++ BitVec.ofBool (s.wp.get k).dl ++ BitVec.ofBool (s.wp.get k).ds))

/-- WRY in both modes; WRPSR, WRWIM, WRTBR and WRASR in supervisor mode write `r[rs1] xor operand2` into the writable fields and
nothing else (43 R520, R526 to R530, 10_state R26, R32 to R35, 20_memory R261). Choices of the spec: EF is writable (parameter
PSR_EF_WRITABLE, log entry 25), the reserved PSR field becomes 0 (92 D5, log entry 53), ASR18 is written whole (92 D26, log entry 24),
a write takes effect at once (92 D34, log entry 21). -/
def Obligations.WriteStateRegisters : Prop :=
  ∀ s rs1 op2, Plain s →
    let v := s.r rs1 ^^^ s.operand2 op2
    Completes (exec (.wry rs1 op2) s) { s with y := v } 0 0 ∧
    (s.psr.s = true →
      (v.toNat % 32 < 8 →
        Completes (exec (.wrpsr rs1 op2) s)
          { s with
            psr :=
              { n := v.getLsbD 23, z := v.getLsbD 22, v := v.getLsbD 21, c := v.getLsbD 20, res := 0, ef := v.getLsbD 12,
                pil := v.extractLsb' 8 4, s := v.getLsbD 7, ps := v.getLsbD 6, et := v.getLsbD 5, cwp := v.extractLsb' 0 3 } } 0 0) ∧
      Completes (exec (.wrwim rs1 op2) s) { s with wim := v.extractLsb' 0 8 } 0 0 ∧
      Completes (exec (.wrtbr rs1 op2) s) { s with tba := v.extractLsb' 12 20 } 0 0 ∧
      Completes (exec (.wrasr 16 rs1 op2) s)
        { s with
          asr16 :=
            { cb := v.extractLsb' 28 4, tcb := v.extractLsb' 16 7, cnt := if v.extractLsb' 28 4 = 0b0100#4 then 0 else s.asr16.cnt } }
        0 0 ∧
      Completes (exec (.wrasr 17 rs1 op2) s) { s with asr17 := v } 0 0 ∧ Completes (exec (.wrasr 18 rs1 op2) s) { s with asr18 := v } 0 0 ∧
      ∀ k : Fin 4,
        Completes (exec (.wrasr (BitVec.ofNat 5 (24 + 2 * k.val)) rs1 op2) s)
          { s with wp := s.wp.set k.val { s.wp.get k with waddr := v.extractLsb' 2 30, ifEn := v.getLsbD 0 } k.isLt } 0 0 ∧
        Completes (exec (.wrasr (BitVec.ofNat 5 (25 + 2 * k.val)) rs1 op2) s)
          { s with wp := s.wp.set k.val { s.wp.get k with wmask := v.extractLsb' 2 30, dl := v.getLsbD 1, ds := v.getLsbD 0 } k.isLt } 0 0)

/-- In user mode each privileged instruction, whatever its operands, raises privileged_instruction and does nothing else (43 R520,
40 R351, 44 R569, 60 R647, 30 R321). That RDASR and WRASR of the implemented ASRs are privileged is a choice of the spec, parameter
ASR_PRIVILEGED (log entry 25; R520, 92 D29), and that STDCQ is privileged is taken from outside the manual (R321; log entry 33). -/
def Obligations.PrivilegedTraps : Prop :=
  ∀ i s, privileged i = true → s.psr.s = false → NoInjection s → CanTrap s ttPrivileged → Traps (exec i s) s ttPrivileged

/-- RDASR and WRASR of an ASR that does not exist, in both modes, and WRPSR of a CWP of 8 or more, raise illegal_instruction and write
nothing (43 R523, R526, R528). That RDASR and WRASR of just these numbers trap, and in both modes, is the spec's own decision: the manual
says that they may (R523, 92 D29; log entry 53). -/
def Obligations.IllegalStateRegisters : Prop :=
  ∀ s, Plain s → CanTrap s ttIllegal →
    (∀ n : RegNum, n ≠ 0 → n ∉ ([16, 17, 18, 24, 25, 26, 27, 28, 29, 30, 31] : List RegNum) →
      (∀ rd, Traps (exec (.rdasr rd n) s) s ttIllegal) ∧ ∀ rs1 op2, Traps (exec (.wrasr n rs1 op2) s) s ttIllegal) ∧
    ∀ rs1 op2, s.psr.s = true → 8 ≤ (s.r rs1 ^^^ s.operand2 op2).toNat % 32 → Traps (exec (.wrpsr rs1 op2) s) s ttIllegal

/-- UNIMP raises illegal_instruction; the coprocessor instructions raise cp_disabled, STDCQ in supervisor mode (43 R535, R538,
42 R475, 30 R321, 60 R628). That the coprocessor instructions raise cp_disabled is a choice of the spec (92 D24, log entry 33), and that
STDCQ needs supervisor mode is presumed (R321, log entry 33). -/
def Obligations.UnimpCoprocessorTraps : Prop :=
  ∀ s, NoInjection s →
    (∀ c, CanTrap s ttIllegal → Traps (exec (.unimp c) s) s ttIllegal) ∧
    ∀ i, coprocessor i = true → (privileged i = true → s.psr.s = true) → CanTrap s ttCpDisabled → Traps (exec i s) s ttCpDisabled

/-- STBAR only advances; FLUSH flushes both caches, whole, and changes nothing else (43 R536, R537, 20_memory R239, R244, R249). That
the flush is complete in FLUSH's own step is the model's choice (log entry 16), and so is STBAR as a no-operation (log entry 22). -/
def Obligations.StbarFlushResults : Prop :=
  ∀ s, Plain s →
    Completes (exec .stbar s) s 0 0 ∧
    ∀ rs1 op2, ∃ t, exec (.flush rs1 op2) s = .next t ∧ (∀ k, (t.icache.tag k).val = 0 ∧ (t.dcache.tag k).val = 0) ∧
      t = { s with
            icache := { s.icache with tags := t.icache.tags }, dcache := { s.dcache with tags := t.dcache.tags }
            pc := s.npc, npc := s.npc + 4 }

/-- The multiply-accumulate encodings are refused by name, whatever the operands (30 R322, 43 R531). -/
def Obligations.MacRefused : Prop :=
  ∀ s rd rs1 op2, exec (.mac3e rd rs1 op2) s = .refused .macEncoding ∧ exec (.mac3f rd rs1 op2) s = .refused .macEncoding

/-! ### Loads and stores. `PlainRam`, `WritableRam`: enabled RAM without an error, data cache off. -/

/-- LDSB, LDUB, LDSH, LDUH, LD; LDD with the word at EA in the even register and the word at EA + 4 in the odd one (40 R353 to R358,
20_memory R201, R203). -/
def Obligations.LoadResults : Prop :=
  ∀ s rd rs1 op2, Plain s →
    let a := ea s rs1 op2
    let b (k : Nat) : Byte := s.byteAt (a.toNat + k)
    PlainRam s a → NoWatch s true false a →
      Completes (exec (.ldsb rd rs1 op2) s) s rd ((b 0).signExtend 32) ∧ Completes (exec (.ldub rd rs1 op2) s) s rd ((b 0).setWidth 32) ∧
      (a.toNat % 2 = 0 →
        Completes (exec (.ldsh rd rs1 op2) s) s rd ((b 0 ++ b 1).signExtend 32) ∧
        Completes (exec (.lduh rd rs1 op2) s) s rd ((b 0 ++ b 1).setWidth 32)) ∧
      (a.toNat % 4 = 0 → Completes (exec (.ld rd rs1 op2) s) s rd (b 0 ++ b 1 ++ b 2 ++ b 3)) ∧
      (rd.toNat % 2 = 0 → a.toNat % 8 = 0 → PlainRam s (a + 4) →
        CompletesPair (exec (.ldd rd rs1 op2) s) s rd (b 0 ++ b 1 ++ b 2 ++ b 3) (b 4 ++ b 5 ++ b 6 ++ b 7))

/-- STB, STH, ST, STD store the low byte, the low halfword, the word, both words at EA, big-endian, and change no other byte and no
register (40 R365 to R368, 20_memory R201, R203). -/
def Obligations.StoreResults : Prop :=
  ∀ s rd rs1 op2, Plain s →
    let a := ea s rs1 op2
    let v := s.r rd
    WritableRam s a → NoWatch s false true a →
      CompletesStore (exec (.stb rd rs1 op2) s) s a [v.extractLsb' 0 8] 0 0 ∧
      (a.toNat % 2 = 0 → CompletesStore (exec (.sth rd rs1 op2) s) s a [v.extractLsb' 8 8, v.extractLsb' 0 8] 0 0) ∧
      (a.toNat % 4 = 0 → CompletesStore (exec (.st rd rs1 op2) s) s a (bytesOfWord v) 0 0) ∧
      (rd.toNat % 2 = 0 → a.toNat % 8 = 0 → WritableRam s (a + 4) →
        CompletesStore (exec (.std rd rs1 op2) s) s a (bytesOfWord v ++ bytesOfWord (s.r (rd + 1))) 0 0)

/-- LDSTUB: `r[rd]` takes the byte at EA, which becomes 0xFF. SWAP: `r[rd]` and the word at EA change places (40 R373, R375). -/
def Obligations.AtomicResults : Prop :=
  ∀ s rd rs1 op2, Plain s →
    let a := ea s rs1 op2
    WritableRam s a → NoWatch s true true a →
      CompletesStore (exec (.ldstub rd rs1 op2) s) s a [0xFF] rd ((s.byteAt a.toNat).setWidth 32) ∧
      (a.toNat % 4 = 0 → CompletesStore (exec (.swap rd rs1 op2) s) s a (bytesOfWord (s.r rd)) rd (s.wordAt a.toNat))

/-- In supervisor mode the alternate-space forms with i = 0 and an ASI whose low four bits name memory (0 to 4, 7 to 0xB) do what the
forms without an ASI do (40 R352, R359 to R364, R369 to R372, R374, R376). -/
def Obligations.AlternateMemoryResults : Prop :=
  ∀ s rd rs1 asi rs2, Plain s → s.psr.s = true →
    asi.extractLsb' 0 4 ∈ ([0, 1, 2, 3, 4, 7, 8, 9, 10, 11] : List (BitVec 4)) →
    let a := s.r rs1 + s.r rs2
    let x : AltArg := .reg asi rs2
    let b (k : Nat) : Byte := s.byteAt (a.toNat + k)
    let v := s.r rd
    (PlainRam s a → NoWatch s true false a →
      Completes (exec (.ldsba rd rs1 x) s) s rd ((b 0).signExtend 32) ∧ Completes (exec (.lduba rd rs1 x) s) s rd ((b 0).setWidth 32) ∧
      (a.toNat % 2 = 0 →
        Completes (exec (.ldsha rd rs1 x) s) s rd ((b 0 ++ b 1).signExtend 32) ∧
        Completes (exec (.lduha rd rs1 x) s) s rd ((b 0 ++ b 1).setWidth 32)) ∧
      (a.toNat % 4 = 0 → Completes (exec (.lda rd rs1 x) s) s rd (s.wordAt a.toNat)) ∧
      (rd.toNat % 2 = 0 → a.toNat % 8 = 0 → PlainRam s (a + 4) →
        CompletesPair (exec (.ldda rd rs1 x) s) s rd (s.wordAt a.toNat) (s.wordAt (a.toNat + 4)))) ∧
    (WritableRam s a → NoWatch s false true a →
      CompletesStore (exec (.stba rd rs1 x) s) s a [v.extractLsb' 0 8] 0 0 ∧
      (a.toNat % 2 = 0 → CompletesStore (exec (.stha rd rs1 x) s) s a [v.extractLsb' 8 8, v.extractLsb' 0 8] 0 0) ∧
      (a.toNat % 4 = 0 → CompletesStore (exec (.sta rd rs1 x) s) s a (bytesOfWord v) 0 0) ∧
      (rd.toNat % 2 = 0 → a.toNat % 8 = 0 → WritableRam s (a + 4) →
        CompletesStore (exec (.stda rd rs1 x) s) s a (bytesOfWord v ++ bytesOfWord (s.r (rd + 1))) 0 0)) ∧
    (WritableRam s a → NoWatch s true true a →
      CompletesStore (exec (.ldstuba rd rs1 x) s) s a [0xFF] rd ((b 0).setWidth 32) ∧
      (a.toNat % 4 = 0 → CompletesStore (exec (.swapa rd rs1 x) s) s a (bytesOfWord v) rd (s.wordAt a.toNat)))

/-- ASI 5 and 6: every form flushes its whole cache; loads leave `r[rd]`, stores store nothing, SWAPA and LDSTUBA load `r[rd]` from
memory, whatever the caches do, and do not write memory (40 R352, R359 to R364, R369 to R372, R374, R376, 20_memory R249). Choices: that
the flush is complete in the instruction's own step, CCR untouched, is the model's (log entry 16); that LDSTUBA, which has no table in
the manual, follows the column of SWAPA is the spec's inference (R352). -/
def Obligations.AlternateFlushResults : Prop :=
  ∀ s rd rs1 asi rs2 c, Plain s → s.psr.s = true →
    (asi.extractLsb' 0 4 = 5 ∧ c = CacheId.icache) ∨ (asi.extractLsb' 0 4 = 6 ∧ c = CacheId.dcache) →
    let a := s.r rs1 + s.r rs2
    let x : AltArg := .reg asi rs2
    let flushes (i : Instr) : Prop := ∃ t, exec i s = .next t ∧ FlushesTo s t c ∧ t.ireg = s.ireg
    (NoWatch s true false a →
      flushes (.ldsba rd rs1 x) ∧ flushes (.lduba rd rs1 x) ∧ (a.toNat % 2 = 0 → flushes (.ldsha rd rs1 x) ∧ flushes (.lduha rd rs1 x)) ∧
      (a.toNat % 4 = 0 → flushes (.lda rd rs1 x)) ∧ (rd.toNat % 2 = 0 → a.toNat % 8 = 0 → flushes (.ldda rd rs1 x))) ∧
    (NoWatch s false true a →
      flushes (.stba rd rs1 x) ∧ (a.toNat % 2 = 0 → flushes (.stha rd rs1 x)) ∧ (a.toNat % 4 = 0 → flushes (.sta rd rs1 x)) ∧
      (rd.toNat % 2 = 0 → a.toNat % 8 = 0 → flushes (.stda rd rs1 x))) ∧
    (ReadableRam s a → NoWatch s true true a →
      (∃ t, exec (.ldstuba rd rs1 x) s = .next t ∧ FlushesTo s t c ∧ WritesReg s t rd ((s.byteAt a.toNat).setWidth 32)) ∧
      (a.toNat % 4 = 0 →
        ∃ t, exec (.swapa rd rs1 x) s = .next t ∧ FlushesTo s t c ∧ WritesReg s t rd (s.wordAt a.toNat)))

/-- ASI 0xC to 0xF, the word forms and the doubleword ones as two words: LDA and LDDA read the tag or data word at the offset, STA and
STDA write it and no other, SWAPA exchanges it; memory is not touched (40 R352, R363, R364, R371, R372, R376, 20_memory R245). Choices:
the split of the offset into way and line is the spec's (R245, 92 D21); that an offset past the cache wraps around (log entry 16) and
that a diagnostic store leaves good parity (log entry 50) are the model's. -/
def Obligations.AlternateDiagnosticResults : Prop :=
  ∀ s rd rs1 asi rs2 c isTag, Plain s → s.psr.s = true →
    (asi.extractLsb' 0 4, c, isTag) ∈
      ([(12, CacheId.icache, true), (13, CacheId.icache, false), (14, CacheId.dcache, true), (15, CacheId.dcache, false)] :
        List (BitVec 4 × CacheId × Bool)) →
    let a := s.r rs1 + s.r rs2
    let x : AltArg := .reg asi rs2
    let key (b : Word) : Nat :=
      let off := b.toNat % (match c with | .icache => 0x8000 | .dcache => 0x4000)
      let line := off / 0x2000 * (match c with | .icache => 256 | .dcache => 512) + off % 0x2000 / (match c with | .icache => 32 | .dcache => 16)
      if isTag then line else off / 4
    let at' (u : State) (k : Nat) : CacheWord := if isTag then (u.getCache c).tag k else (u.getCache c).word k
    let stores (u t : State) (new : Nat → CacheWord) : Prop :=
      (∀ k, at' t k = new k) ∧
        t.getCache c =
          (if isTag then { u.getCache c with tags := (t.getCache c).tags } else { u.getCache c with data := (t.getCache c).data }) ∧
        t = { u.setCache c (t.getCache c) with ireg := t.ireg, pc := u.npc, npc := u.npc + 4 }
    let v := CacheWord.clean (s.r rd)
    let v2 := CacheWord.clean (s.r (rd + 1))
    let one (k : Nat) : CacheWord := if k = key a then v else at' s k
    let two (k : Nat) : CacheWord := if k = key (a + 4) then v2 else one k
    a.toNat % 4 = 0 →
      (NoWatch s true false a →
        Completes (exec (.lda rd rs1 x) s) s rd (at' s (key a)).val ∧
        (rd.toNat % 2 = 0 → a.toNat % 8 = 0 →
          CompletesPair (exec (.ldda rd rs1 x) s) s rd (at' s (key a)).val (at' s (key (a + 4))).val)) ∧
      (NoWatch s false true a →
        (∃ t, exec (.sta rd rs1 x) s = .next t ∧ stores s t one ∧ t.ireg = s.ireg) ∧
        (rd.toNat % 2 = 0 → a.toNat % 8 = 0 → ∃ t, exec (.stda rd rs1 x) s = .next t ∧ stores s t two ∧ t.ireg = s.ireg)) ∧
      (NoWatch s true true a → ∃ t, exec (.swapa rd rs1 x) s = .next t ∧ stores s t one ∧ WritesReg s t rd (at' s (key a)).val)

/-- An address that is no multiple of the access size traps before the access (40 R351, R354, R356 to R358, R366 to R368, R375,
44 R562 to R564, R566 to R568). -/
def Obligations.MisalignedTraps : Prop :=
  ∀ s rd rs1 op2, Plain s → CanTrap s ttNotAligned →
    let a := ea s rs1 op2
    let traps (i : Instr) : Prop := Traps (exec i s) s ttNotAligned
    (NoWatch s true false a →
      (a.toNat % 2 ≠ 0 → traps (.ldsh rd rs1 op2) ∧ traps (.lduh rd rs1 op2)) ∧
      (a.toNat % 4 ≠ 0 → traps (.ld rd rs1 op2) ∧ (s.psr.ef = true → traps (.ldf rd rs1 op2) ∧ traps (.ldfsr rs1 op2))) ∧
      (a.toNat % 8 ≠ 0 → (rd.toNat % 2 = 0 → traps (.ldd rd rs1 op2)) ∧ (s.psr.ef = true → traps (.lddf rd rs1 op2)))) ∧
    (NoWatch s false true a →
      (a.toNat % 2 ≠ 0 → traps (.sth rd rs1 op2)) ∧
      (a.toNat % 4 ≠ 0 →
        traps (.st rd rs1 op2) ∧ (s.psr.ef = true → FregsClean s → traps (.stf rd rs1 op2) ∧ traps (.stfsr rs1 op2))) ∧
      (a.toNat % 8 ≠ 0 →
        (rd.toNat % 2 = 0 → traps (.std rd rs1 op2)) ∧ (s.psr.ef = true → FregsClean s → traps (.stdf rd rs1 op2)))) ∧
    (NoWatch s true true a → a.toNat % 4 ≠ 0 → traps (.swap rd rs1 op2)) ∧
    ∀ asi rs2, op2 = .reg rs2 → s.psr.s = true →
      let x : AltArg := .reg asi rs2
      (NoWatch s true false a →
        (a.toNat % 2 ≠ 0 → traps (.ldsha rd rs1 x) ∧ traps (.lduha rd rs1 x)) ∧ (a.toNat % 4 ≠ 0 → traps (.lda rd rs1 x)) ∧
        (a.toNat % 8 ≠ 0 → rd.toNat % 2 = 0 → traps (.ldda rd rs1 x))) ∧
      (NoWatch s false true a →
        (a.toNat % 2 ≠ 0 → traps (.stha rd rs1 x)) ∧ (a.toNat % 4 ≠ 0 → traps (.sta rd rs1 x)) ∧
        (a.toNat % 8 ≠ 0 → rd.toNat % 2 = 0 → traps (.stda rd rs1 x))) ∧
      (NoWatch s true true a → a.toNat % 4 ≠ 0 → traps (.swapa rd rs1 x))

/-- LDD, STD, LDDA, STDA with an odd rd, and every alternate-space form with i = 1, raise illegal_instruction (40 R351, R358 to R364,
R368 to R372, R374, R376). -/
def Obligations.IllegalMemoryForms : Prop :=
  ∀ s rd rs1, NoInjection s → CanTrap s ttIllegal →
    let traps (i : Instr) : Prop := Traps (exec i s) s ttIllegal
    (rd.toNat % 2 = 1 →
      (∀ op2, traps (.ldd rd rs1 op2) ∧ traps (.std rd rs1 op2)) ∧
      (s.psr.s = true → ∀ x, traps (.ldda rd rs1 x) ∧ traps (.stda rd rs1 x))) ∧
    (s.psr.s = true → ∀ c,
      let x : AltArg := .imm c
      traps (.ldsba rd rs1 x) ∧ traps (.ldsha rd rs1 x) ∧ traps (.lduba rd rs1 x) ∧ traps (.lduha rd rs1 x) ∧ traps (.lda rd rs1 x) ∧
        traps (.ldda rd rs1 x) ∧ traps (.stba rd rs1 x) ∧ traps (.stha rd rs1 x) ∧ traps (.sta rd rs1 x) ∧ traps (.stda rd rs1 x) ∧
        traps (.ldstuba rd rs1 x) ∧ traps (.swapa rd rs1 x))

/-- A store to RAM that a write-protection unit forbids, of whatever width, from r or f registers, raises data_store_error; memory and
every register keep their values (20_memory R236, R232). The unit's formula is R236's. That the trap comes on the store itself (92 D17,
log entry 20; hardware may report it later) and that either unit alone forbids (92 D16) are choices the spec names as its own. -/
def Obligations.WriteProtectionTraps : Prop :=
  ∀ s rd rs1 op2, Plain s → CanTrap s ttStoreError →
    let a := ea s rs1 op2
    let forbids (w : Word) : Prop :=
      w.getLsbD 31 = true ∧ ((a.extractLsb' 15 15 ^^^ w.extractLsb' 15 15) &&& w.extractLsb' 0 15 = 0 ↔ w.getLsbD 30 = true)
    0x40000000 ≤ a.toNat → a.toNat < 0x80000000 → DsuIdle s a → forbids s.dev.wpr1 ∨ forbids s.dev.wpr2 →
      let fails (i : Instr) : Prop := ∃ u t, exec i s = .next t ∧ EntersTrap u t ttStoreError ∧ u.cpu = s.cpu ∧ u.mem = s.mem
      (NoWatch s false true a →
        fails (.stb rd rs1 op2) ∧ (a.toNat % 2 = 0 → fails (.sth rd rs1 op2)) ∧ (a.toNat % 4 = 0 → fails (.st rd rs1 op2)) ∧
        (rd.toNat % 2 = 0 → a.toNat % 8 = 0 → fails (.std rd rs1 op2)) ∧
        (FpPlain s →
          (a.toNat % 4 = 0 → fails (.stf rd rs1 op2) ∧ fails (.stfsr rs1 op2)) ∧
          (rd.toNat % 2 = 0 → a.toNat % 8 = 0 → fails (.stdf rd rs1 op2)))) ∧
      (NoWatch s true true a → PlainRam s a → fails (.ldstub rd rs1 op2) ∧ (a.toNat % 4 = 0 → fails (.swap rd rs1 op2)))

/-- A load, store or fetch at an address where nothing is, or of external memory while BEXCN is low and honoured, raises
data_access_exception, data_store_error or instruction_access_exception; memory and the registers keep their values, and the AHB
registers latch the first error (20_memory R211, R220, R221, R234). That the unassigned ranges answer with an error (R221, 92 D14),
that every such error is latched (R234, 92 D18, log entry 19), and that data_store_error comes on the store itself (R232, 92 D17, log
entry 20), are choices the spec names as such. -/
def Obligations.UnassignedAddressTraps : Prop :=
  ∀ s, s.dev.ahbStat.getLsbD 8 = false →
    let nothing (a : Word) (c : CacheId) : Prop :=
      (0x80000200 ≤ a.toNat ∧ a.toNat < 0x90000000) ∨ (0xA0000000 ≤ a.toNat ∧ a.toNat < 0xC0000000) ∨
        (a.toNat < 0x80000000 ∧ s.dev.mcfg1.getLsbD 25 = true ∧ s.pins.bexcn = false ∧ cacheOn s.dev c = false)
    let latched (u : State) (a : Word) (read : Bool) : Prop :=
      u.dev.ahbFail = a ∧ u.dev.ahbStat.getLsbD 8 = true ∧ u.dev.ahbStat.getLsbD 7 = read
    (Plain s → ∀ rd rs1 op2,
      let a := ea s rs1 op2
      let fails (i : Instr) (tt : BitVec 8) (read : Bool) : Prop :=
        ∃ u t, exec i s = .next t ∧ EntersTrap u t tt ∧ u.cpu = s.cpu ∧ u.mem = s.mem ∧ u.memFlip = s.memFlip ∧ latched u a read
      let loads (i : Instr) : Prop := fails i ttDataAccess true
      let stores (i : Instr) : Prop := fails i ttStoreError false
      nothing a .dcache → DsuIdle s a → NoWatch s true true a →
        (CanTrap s ttDataAccess →
          loads (.ldsb rd rs1 op2) ∧ loads (.ldub rd rs1 op2) ∧ loads (.ldstub rd rs1 op2) ∧
          (a.toNat % 2 = 0 → loads (.ldsh rd rs1 op2) ∧ loads (.lduh rd rs1 op2)) ∧
          (a.toNat % 4 = 0 → loads (.ld rd rs1 op2) ∧ loads (.swap rd rs1 op2)) ∧
          (rd.toNat % 2 = 0 → a.toNat % 8 = 0 → loads (.ldd rd rs1 op2)) ∧
          (FpPlain s →
            (a.toNat % 4 = 0 → loads (.ldf rd rs1 op2) ∧ loads (.ldfsr rs1 op2)) ∧
            (rd.toNat % 2 = 0 → a.toNat % 8 = 0 → loads (.lddf rd rs1 op2)))) ∧
        (CanTrap s ttStoreError →
          stores (.stb rd rs1 op2) ∧ (a.toNat % 2 = 0 → stores (.sth rd rs1 op2)) ∧ (a.toNat % 4 = 0 → stores (.st rd rs1 op2)) ∧
          (rd.toNat % 2 = 0 → a.toNat % 8 = 0 → stores (.std rd rs1 op2)) ∧
          (FpPlain s →
            (a.toNat % 4 = 0 → stores (.stf rd rs1 op2) ∧ stores (.stfsr rs1 op2)) ∧
            (rd.toNat % 2 = 0 → a.toNat % 8 = 0 → stores (.stdf rd rs1 op2))))) ∧
    (Runs s → nothing s.ready.pc .icache → DsuIdle s.ready s.ready.pc → NoInjection s.ready → CanTrap s.ready ttInstructionAccess →
      ∃ u t, step s = .next (boundary (afterInstr 0 s.ready u t exec) trapCycles) ∧ EntersTrap u t ttInstructionAccess ∧
        u.cpu = s.ready.cpu ∧ u.mem = s.mem ∧ u.memFlip = s.memFlip ∧ latched u s.ready.pc true)

/-! ### Error correction -/

/-- A source register, r or f, with one flipped bit gives the right value, is rewritten, and is counted while CB = 0 (below the maximum,
where the count is log entry 37); one with two flipped bits raises register_hardware_error. While CB = "1010" a written register takes the
data with the bits of ASR17 flipped and the check bits with those of TCB flipped (20_memory R260 to R262, 60 R633, 44 R565). Choices: no
other CB than 0 counts (93 I5, log entry 37); f registers are never written with injected errors, so their clause holds for CB = "1010"
too (R262, 93 I37; log entry 17). -/
def Obligations.RegisterEdac : Prop :=
  ∀ s rd n, watchFetch s s.pc = false →
    let i := regIndex s.psr.cwp n
    let w := s.ireg.get i
    (n ≠ 0 → NoInjection s → ∀ k, k < 39 → w.flip = 1#39 <<< k →
      let v := w.data ^^^ w.flip.extractLsb' 0 32
      Completes (exec (.or rd n (.imm 0)) s)
        { s with
          ireg := s.ireg.set i.val { data := v, flip := 0 } i.isLt
          asr16 :=
            { s.asr16 with cnt := if s.asr16.cb = 0 ∧ s.asr16.cnt ≠ 0xFFFF#16 then s.asr16.cnt + 1 else s.asr16.cnt } }
        rd v) ∧
    (n ≠ 0 → NoInjection s → ∀ j k, j < k → k < 39 → w.flip = (1#39 <<< j) ||| (1#39 <<< k) → CanTrap s ttRegisterError →
      Traps (exec (.or rd n (.imm 0)) s) s ttRegisterError) ∧
    (n ≠ 0 → s.asr16.cb = 0b1010#4 → ∀ imm22,
      exec (.sethi n imm22) s =
        .next { s with
                ireg := s.ireg.set i.val { data := (imm22 ++ 0#10) ^^^ s.asr17, flip := s.asr16.tcb ++ s.asr17 } i.isLt
                pc := s.npc, npc := s.npc + 4 }) ∧
    (s.psr.ef = true →
      let j := fregIndex n
      let x := s.freg.get j
      (∀ k, k < 39 → x.flip = 1#39 <<< k →
        let v := x.data ^^^ x.flip.extractLsb' 0 32
        CompletesF (exec (.fmovs rd n) s)
          { s with
            freg := s.freg.set j.val { data := v, flip := 0 } j.isLt
            fsr := { s.fsr with cexc := 0, ftt := 0 }
            asr16 :=
              { s.asr16 with cnt := if s.asr16.cb = 0 ∧ s.asr16.cnt ≠ 0xFFFF#16 then s.asr16.cnt + 1 else s.asr16.cnt } }
          [(rd, v)]) ∧
      (NoInjection s → ∀ k l, k < l → l < 39 → x.flip = (1#39 <<< k) ||| (1#39 <<< l) → CanTrap s ttRegisterError →
        Traps (exec (.fmovs rd n) s) s ttRegisterError))

/-- A word of RAM with one flipped bit, its bank's EDAC on and no bypass, is loaded corrected and memory is corrected; with two the
load raises data_access_exception and memory keeps its bytes (20_memory R272, R275). -/
def Obligations.MemoryEdac : Prop :=
  ∀ s rd rs1 op2 b, Plain s →
    let a := ea s rs1 op2
    areaOf a = .ram → a.toNat % 4 = 0 → ramBank s.dev a = some b → b.en = true → busException s = false → erbOn s.dev = false →
    ewbOn s.dev = false → cacheOn s.dev .dcache = false → DsuIdle s a → NoWatch s true false a →
      (∀ k, k < 39 → s.flipAt a.toNat = 1#39 <<< k →
        let v := s.wordAt a.toNat ^^^ (1#39 <<< k).extractLsb' 0 32
        ∃ t, exec (.ld rd rs1 op2) s = .next t ∧ WritesReg s t rd v ∧ t.wordAt a.toNat = v ∧ t.flipAt a.toNat = 0 ∧
          (∀ x, (x < a.toNat ∨ a.toNat + 4 ≤ x) → t.byteAt x = s.byteAt x) ∧ (∀ x, x / 4 ≠ a.toNat / 4 → t.flipAt x = s.flipAt x) ∧
          t = { s with ireg := t.ireg, mem := t.mem, memFlip := t.memFlip, pc := s.npc, npc := s.npc + 4 }) ∧
      (∀ j k, j < k → k < 39 → s.flipAt a.toNat = (1#39 <<< j) ||| (1#39 <<< k) → CanTrap s ttDataAccess →
        ∃ u t, exec (.ld rd rs1 op2) s = .next t ∧ EntersTrap u t ttDataAccess ∧ u.cpu = s.cpu ∧ u.mem = s.mem ∧ u.memFlip = s.memFlip)

/-! ### Floating point -/

/-- LDF, LDDF, LDFSR (44 R562 to R564). -/
def Obligations.FpLoadResults : Prop :=
  ∀ s rd rs1 op2, FpPlain s →
    let a := ea s rs1 op2
    let w := s.wordAt a.toNat
    PlainRam s a → NoWatch s true false a →
      (a.toNat % 4 = 0 →
        CompletesF (exec (.ldf rd rs1 op2) s) s [(rd, w)] ∧
        CompletesF (exec (.ldfsr rs1 op2) s)
          { s with
            fsr :=
              { rd := w.extractLsb' 30 2, tem := w.extractLsb' 23 5, ns := w.getLsbD 22, ftt := s.fsr.ftt, fcc := w.extractLsb' 10 2,
                aexc := w.extractLsb' 5 5, cexc := w.extractLsb' 0 5 } } []) ∧
      (a.toNat % 8 = 0 → rd.toNat % 2 = 0 → PlainRam s (a + 4) →
        CompletesF (exec (.lddf rd rs1 op2) s) s [(rd, w), (rd + 1, s.wordAt (a.toNat + 4))])

/-- STF, STDF, STFSR; STFSR clears ftt after storing (44 R566 to R568, 10_state R37). -/
def Obligations.FpStoreResults : Prop :=
  ∀ s rd rs1 op2, FpPlain s →
    let a := ea s rs1 op2
    WritableRam s a → NoWatch s false true a →
      (a.toNat % 4 = 0 →
        CompletesStore (exec (.stf rd rs1 op2) s) s a (bytesOfWord (s.f rd)) 0 0 ∧
        ∃ w : Word, w.extractLsb' 30 2 = s.fsr.rd ∧ w.extractLsb' 23 5 = s.fsr.tem ∧ w.getLsbD 22 = s.fsr.ns ∧ w.extractLsb' 14 3 = s.fsr.ftt ∧
          w.extractLsb' 10 2 = s.fsr.fcc ∧ w.extractLsb' 5 5 = s.fsr.aexc ∧ w.extractLsb' 0 5 = s.fsr.cexc ∧ w &&& 0x303E3000#32 = 0 ∧
          CompletesStore (exec (.stfsr rs1 op2) s) { s with fsr := { s.fsr with ftt := 0 } } a (bytesOfWord w) 0 0) ∧
      (a.toNat % 8 = 0 → rd.toNat % 2 = 0 → WritableRam s (a + 4) →
        CompletesStore (exec (.stdf rd rs1 op2) s) s a (bytesOfWord (s.f rd) ++ bytesOfWord (s.f (rd + 1))) 0 0)

/-- FMOVs, FNEGs, FABSs: the sign bit alone, and cexc <- 0, ftt <- 0 (44 R565, R577 to R579). -/
def Obligations.FpMoveResults : Prop :=
  ∀ s rd rs2, FpPlain s →
    let u := { s with fsr := { s.fsr with cexc := 0, ftt := 0 } }
    CompletesF (exec (.fmovs rd rs2) s) u [(rd, s.f rs2)] ∧ CompletesF (exec (.fnegs rd rs2) s) u [(rd, s.f rs2 ^^^ 0x80000000#32)] ∧
      CompletesF (exec (.fabss rd rs2) s) u [(rd, s.f rs2 &&& 0x7FFFFFFF#32)]

/-- Every arithmetic FPop: the result is the exact sum, difference, product, quotient, root or converted value, rounded in direction
RD, with the exceptions of 44 R570 and the special cases of R570, R573, R580 and R598; it is delivered as 44 R565 says. With TEM = 0, or
with no exception that TEM enables, the operation completes (44 R560, R561, R565, R570 to R576, R580 to R590). FiTOd, FsTOd and FsMULd
are exact. The NaN delivered, subnormals per IEEE 754, the integer of an invalid conversion, and the whole set of exceptions in cexc
where overflow or underflow traps (R565, 93 I48) are the spec's parameters and choices (log entries 25, 31); that an invalid conversion
sets nv without nx is the model's (log entry 31). -/
def Obligations.FpArithmeticResults : Prop :=
  ∀ s rd rs1 rs2, FpPlain s →
    let rm := s.fsr.rd
    let ufm := s.fsr.tem.getLsbD 2
    let a := s.single rs1
    let b := s.single rs2
    let da := s.double rs1
    let db := s.double rs2
    let inS (i : Instr) (spec : Nat → BitVec 5 → Prop) : Prop :=
      ∃ w ex, spec w ex ∧ FpEnds (exec i s) s ex [(rd, BitVec.ofNat 32 w)]
    let inD (i : Instr) (spec : Nat → BitVec 5 → Prop) : Prop :=
      ∃ w ex, spec w ex ∧ FpEnds (exec i s) s ex [(rd, BitVec.ofNat 32 (w / 2 ^ 32)), (rd + 1, BitVec.ofNat 32 w)]
    let even (n : RegNum) : Prop := n.toNat % 2 = 0
    inS (.fadds rd rs1 rs2) (SumResult single rm ufm false a b) ∧ inS (.fsubs rd rs1 rs2) (SumResult single rm ufm true a b) ∧
      inS (.fmuls rd rs1 rs2) (ProductResult single single rm ufm a b) ∧ inS (.fdivs rd rs1 rs2) (QuotientResult single rm ufm a b) ∧
      inS (.fsqrts rd rs2) (RootResult single rm ufm b) ∧ inS (.fitos rd rs2) (Rounds single rm ufm ((s.f rs2).toInt : ℝ) false) ∧
      inS (.fstoi rd rs2) (IntegerResult single b) ∧
      (even rs2 → inS (.fdtos rd rs2) (ConvertResult double single rm ufm db) ∧ inS (.fdtoi rd rs2) (IntegerResult double db)) ∧
      (even rd →
        inD (.fitod rd rs2) (fun w ex => double.finite w = true ∧ double.value w = (s.f rs2).toInt ∧ ex = 0 ∧ double.neg w = (s.f rs2).msb) ∧
        inD (.fstod rd rs2) (fun w ex => ConvertResult single double rm ufm b w ex ∧
          (single.finite b = true → double.value w = single.value b ∧ ex = 0)) ∧
        inD (.fsmuld rd rs1 rs2) (fun w ex => ProductResult single double rm ufm a b w ex ∧
          (single.finite a = true → single.finite b = true → double.value w = single.value a * single.value b ∧ ex = 0)) ∧
        (even rs2 →
          inD (.fsqrtd rd rs2) (RootResult double rm ufm db) ∧
          (even rs1 →
            inD (.faddd rd rs1 rs2) (SumResult double rm ufm false da db) ∧ inD (.fsubd rd rs1 rs2) (SumResult double rm ufm true da db) ∧
            inD (.fmuld rd rs1 rs2) (ProductResult double double rm ufm da db) ∧
            inD (.fdivd rd rs1 rs2) (QuotientResult double rm ufm da db))))

/-- With a cache on, CCR "11" enabled or "01" frozen (20_memory R242): a load of a byte, halfword or word gives the cached word on a hit,
whatever memory holds; on a miss it reads memory and, enabled, fills the line; wrong parity is counted and the word refilled from memory.
LDD does so for both words, LDSTUB and SWAP for the word they read. A store of any width goes to memory and to a cached copy, and
allocates nothing; ASI 0 to 3, 4 and 7 read memory and refresh a cached copy, 0 to 3 filling on a miss, and ASI 8 to 11 do as the forms
without an ASI; with CCR.DS a write of another master invalidates the line; a fetch does as a load, by pairs of words (R203, R205, R246 to
R248, R252, R254, R256). Choices of log entry 16: how much a miss fills is the model's; that a store allocates nothing (R247), what a
frozen cache does (R242, R248) and that a snoop hit clears the line (R252, 92 D12) are the spec's, from outside the manual. -/
def Obligations.CachedAccessResults : Prop :=
  (∀ s rd rs1 op2, Plain s →
    let a := ea s rs1 op2
    let b := wordBase a
    let k := a.toNat % 4
    let v := s.r rd
    let half : Prop := a.toNat % 2 = 0
    let word : Prop := k = 0
    let dword : Prop := rd.toNat % 2 = 0 ∧ a.toNat % 8 = 0 ∧ CachedRam s (a + 4)
    let ub (x : Word) : Word := (byteOf x k).setWidth 32
    let sb (x : Word) : Word := (byteOf x k).signExtend 32
    let uh (x : Word) : Word := (halfOf x k).setWidth 32
    let sh (x : Word) : Word := (halfOf x k).signExtend 32
    let normal (asi : BitVec 8) : Prop := asi.extractLsb' 0 4 ∈ ([8, 9, 10, 11] : List (BitVec 4))
    CachedRam s a → CachedRam s b → s.dev.ccr.getLsbD 2 = true →
      (NoWatch s true false a →
        CachedLoad s (exec (.ldub rd rs1 op2) s) rd b ub ∧ CachedLoad s (exec (.ldsb rd rs1 op2) s) rd b sb ∧
        (half → CachedLoad s (exec (.lduh rd rs1 op2) s) rd b uh ∧ CachedLoad s (exec (.ldsh rd rs1 op2) s) rd b sh) ∧
        (word → CachedLoad s (exec (.ld rd rs1 op2) s) rd b id) ∧
        (dword → GoodIfHeld s a → GoodIfHeld s (a + 4) → CachedLoadPair s (exec (.ldd rd rs1 op2) s) rd a) ∧
        ∀ asi rs2, op2 = .reg rs2 → s.psr.s = true →
          let x : AltArg := .reg asi rs2
          AlternateLoad s (exec (.lduba rd rs1 x) s) rd b ub asi ∧ AlternateLoad s (exec (.ldsba rd rs1 x) s) rd b sb asi ∧
          (half → AlternateLoad s (exec (.lduha rd rs1 x) s) rd b uh asi ∧ AlternateLoad s (exec (.ldsha rd rs1 x) s) rd b sh asi) ∧
          (word → AlternateLoad s (exec (.lda rd rs1 x) s) rd b id asi) ∧
          (dword → normal asi → GoodIfHeld s a → GoodIfHeld s (a + 4) → CachedLoadPair s (exec (.ldda rd rs1 x) s) rd a)) ∧
      (writeProtected s.dev a = false → ewbOn s.dev = false →
        (NoWatch s false true a →
          CachedStore s (exec (.stb rd rs1 op2) s) a [v.extractLsb' 0 8] ∧
          (half → CachedStore s (exec (.sth rd rs1 op2) s) a [v.extractLsb' 8 8, v.extractLsb' 0 8]) ∧
          (word → CachedStore s (exec (.st rd rs1 op2) s) a (bytesOfWord v)) ∧
          (dword → writeProtected s.dev (a + 4) = false → CachedStorePair s (exec (.std rd rs1 op2) s) a v (s.r (rd + 1))) ∧
          ∀ asi rs2, op2 = .reg rs2 → s.psr.s = true →
            asi.extractLsb' 0 4 ∈ ([0, 1, 2, 3, 4, 7, 8, 9, 10, 11] : List (BitVec 4)) →
            let x : AltArg := .reg asi rs2
            CachedStore s (exec (.stba rd rs1 x) s) a [v.extractLsb' 0 8] ∧
            (half → CachedStore s (exec (.stha rd rs1 x) s) a [v.extractLsb' 8 8, v.extractLsb' 0 8]) ∧
            (word → CachedStore s (exec (.sta rd rs1 x) s) a (bytesOfWord v)) ∧
            (dword → writeProtected s.dev (a + 4) = false → CachedStorePair s (exec (.stda rd rs1 x) s) a v (s.r (rd + 1)))) ∧
        (NoWatch s true true a → GoodIfHeld s b →
          CachedAtomic s (exec (.ldstub rd rs1 op2) s) rd a (ub (cachedWord s b)) [0xFF] ∧
          (word → CachedAtomic s (exec (.swap rd rs1 op2) s) rd a (cachedWord s b) (bytesOfWord v)) ∧
          ∀ asi rs2, op2 = .reg rs2 → s.psr.s = true → normal asi →
            let x : AltArg := .reg asi rs2
            CachedAtomic s (exec (.ldstuba rd rs1 x) s) rd a (ub (cachedWord s b)) [0xFF] ∧
            (word → CachedAtomic s (exec (.swapa rd rs1 x) s) rd a (cachedWord s b) (bytesOfWord v))) ∧
        ∀ d w, word → s.dev.ccr.getLsbD 23 = true → hitWay .dcache s.dcache a = some w →
          ∃ t, busWrite s .pci a .word d = .ok () t ∧ StoresBytes s t a (bytesOfWord d) ∧ OtherLinesKept s t .dcache a w [] ∧
            (∀ x : Word, x >>> 4 = a >>> 4 → holdsWord .dcache t.dcache x w = false) ∧
            t = { s with mem := t.mem, memFlip := t.memFlip, dcache := t.dcache })) ∧
  ∀ s a,
    let m := s.wordAt a.toNat
    let hit := hitWay .icache s.icache a
    a.toNat % 4 = 0 → CachedRam s a → CachedRam s (a ^^^ 4) → s.dev.ccr.getLsbD 0 = true →
      (∀ w, hit = some w → badTag s .icache a w = false → badWord s .icache a w = false →
        ∃ l, UsedLast { s.icache with lru := l } .icache a w ∧
          fetchWord s a = .ok (s.icache.word (dataKey w a)).val { s with icache := { s.icache with lru := l } }) ∧
      (∀ w, hit = some w → badTag s .icache a w = true ∨ badWord s .icache a w = true →
        counterBelowMax .icache (badTag s .icache a w) s.dev.ccr3 →
        ∃ t, fetchWord s a = .ok m t ∧ Holds t .icache a w m ∧ badTag t .icache a w = false ∧
          OtherLinesKept s t .icache a w [a, a ^^^ 4] ∧
          t = { s with icache := t.icache, dev := { s.dev with ccr3 := countedError .icache (badTag s .icache a w) s.dev.ccr3 } }) ∧
      (hit = none → s.dev.ccr.getLsbD 1 = true →
        ∃ t w, fetchWord s a = .ok m t ∧ Holds t .icache a w m ∧ Holds t .icache (a ^^^ 4) w (s.wordAt (a ^^^ 4).toNat) ∧
          badTag t .icache a w = false ∧ UsedLast t.icache .icache a w ∧ OtherLinesKept s t .icache a w [a, a ^^^ 4] ∧
          t = { s with icache := t.icache }) ∧
      (hit = none → s.dev.ccr.getLsbD 1 = false → fetchWord s a = .ok m s)

/-- The comparisons write fcc, or trap on an enabled nv and leave it (44 R565, R591 to R594). -/
def Obligations.FpCompareResults : Prop :=
  ∀ s rs1 rs2, FpPlain s →
    let done (i : Instr) (t : FpFormat) (a b : Nat) (all : Bool) : Prop :=
      let x := unpack t a
      let y := unpack t b
      let nv := x.isSignaling || y.isSignaling || (all && (x.isNan || y.isNan))
      let e : BitVec 5 := if nv then 0b10000 else 0
      if s.fsr.tem &&& e = 0 then
        CompletesF (exec i s) { s with fsr := { s.fsr with cexc := e, aexc := s.fsr.aexc ||| e, ftt := 0, fcc := fpRelation t a b } } []
      else CanTrap s ttFpException → Traps (exec i s) { s with fsr := { s.fsr with cexc := e, ftt := fttIeee } } ttFpException
    done (.fcmps rs1 rs2) single (s.single rs1) (s.single rs2) false ∧ done (.fcmpes rs1 rs2) single (s.single rs1) (s.single rs2) true ∧
      (rs1.toNat % 2 = 0 → rs2.toNat % 2 = 0 →
        done (.fcmpd rs1 rs2) double (s.double rs1) (s.double rs2) false ∧
        done (.fcmped rs1 rs2) double (s.double rs1) (s.double rs2) true)

/-- The relation of two finite operands is that of their values; a NaN is unordered (10_state R39, 44 section 9). -/
def Obligations.FpRelationByValue : Prop :=
  ∀ t a b, t = single ∨ t = double → a < 2 ^ (1 + t.eb + t.mb) → b < 2 ^ (1 + t.eb + t.mb) →
    let x := unpack t a
    let y := unpack t b
    (x.isNan = true ∨ y.isNan = true → fpRelation t a b = 3) ∧
      (x.finite = true → y.finite = true →
        (x.value = y.value → fpRelation t a b = 0) ∧ (x.value < y.value → fpRelation t a b = 1) ∧
          (y.value < x.value → fpRelation t a b = 2))

/-- `roundFp` rounds the magnitude m * 2^e, or with `sticky` one strictly between that and (m + 1) * 2^e, as 44 R570 says: ties to even,
infinity or the largest finite number on overflow, the flags of, uf, nx (10_state R37, R40). Without overflow the result is less than
one unit in the last place away, at most half of one in nearest mode. -/
def Obligations.RoundingError : Prop :=
  ∀ t rm sign (m : Nat) (e : Int) sticky (tem : BitVec 5) (x : ℝ), t = single ∨ t = double → m ≠ 0 →
    (sticky = false → x = m * 2 ^ e) → (sticky = true → 2 ^ (t.mb + 1) ≤ m ∧ m * 2 ^ e < x ∧ x < (m + 1) * 2 ^ e) →
    let r := roundFp t rm sign m e sticky
    let y := if sign then -x else x
    let v : ℝ := (unpack t r.bits).value
    let ulp : ℝ := 2 ^ (max ((Nat.log2 m : Int) + e) (1 - (t.bias : Int)) - (t.mb : Int))
    Rounds t rm (tem.getLsbD 2) y sign r.bits (r.exceptions tem) ∧
      (r.ovf = false →
        (unpack t r.bits).finite = true ∧ |v - y| < ulp ∧ (rm = 0 → 2 * |v - y| ≤ ulp) ∧ (rm = 1 → |v| ≤ |y|) ∧ (rm = 2 → y ≤ v) ∧
          (rm = 3 → v ≤ y) ∧ (r.nx = true ↔ v ≠ y))

/-- Every integer is exact in double and comes back: FiTOd, FdTOi, without an exception (44 R572, R574). -/
def Obligations.IntegerDoubleRoundTrip : Prop :=
  ∀ rm w,
    let r := fpOfInt double rm w
    r.exceptions 0 = 0 ∧ (unpack double r.bits).value = w.toInt ∧ fpToInt (unpack double r.bits) = { bits := w.toNat }

/-- Floating-point instructions with EF = 0 raise fp_disabled; STDFQ in supervisor mode too, and with EF = 1 it raises fp_exception
with ftt = 4 (44 R560, R569, 42 R474). That the quad operations are among them (44 R595, 30 R321, 92 D24; log entry 33), and that STDFQ
leaves nothing behind but ftt = 4 (R569, 92 D27; log entry 53), are choices of the spec. -/
def Obligations.FpDisabledTraps : Prop :=
  ∀ s, NoInjection s →
    (s.psr.ef = false → CanTrap s ttFpDisabled →
      (∀ i, floating i = true → Traps (exec i s) s ttFpDisabled) ∧
      (s.psr.s = true → ∀ rs1 op2, Traps (exec (.stdfq rs1 op2) s) s ttFpDisabled)) ∧
    (s.psr.ef = true → s.psr.s = true → watchFetch s s.pc = false → CanTrap s ttFpException →
      ∀ rs1 op2, Traps (exec (.stdfq rs1 op2) s) { s with fsr := { s.fsr with ftt := 4 } } ttFpException)

/-- Quad operations raise fp_exception with ftt = 3; an odd register in a double field raises it with ftt = 6, for LDDF and STDF after
the alignment check; nothing else changes (44 R561, R595, R564, R567). That every double field with an odd register raises it is the
spec's own decision (R561, 92 D35; log entry 53), and so is what the quad operations raise (R595, 30 R321, 92 D24; log entry 33). That an
odd register number comes before an uncorrectable error in an f register, which this allows, is the model's choice (log entry 38). -/
def Obligations.FpExceptionTraps : Prop :=
  ∀ s, Plain s → s.psr.ef = true → CanTrap s ttFpException →
    let traps (i : Instr) (ftt : BitVec 3) : Prop := Traps (exec i s) { s with fsr := { s.fsr with ftt := ftt } } ttFpException
    (∀ i, quad i = true → traps i 3) ∧ (∀ i, oddDouble i = true → traps i 6) ∧
      ∀ rd rs1 op2, rd.toNat % 2 = 1 → (ea s rs1 op2).toNat % 8 = 0 →
        (NoWatch s true false (ea s rs1 op2) → traps (.lddf rd rs1 op2) 6) ∧ (NoWatch s false true (ea s rs1 op2) → traps (.stdf rd rs1 op2) 6)

/-! ### Timers and interrupt registers -/

/-- One TICK of an enabled timer: an underflow at 0 pends interrupt 8 or 9, with RL = 1 reloads, else the count goes down; with EN = 0
it holds. The watchdog counts down while WTDEN1 = 1 and asserts its pin at 0 (60 R681, R682, R684). That its count is then
held at 0 with the pin asserted is the model's choice (93 I54, log entry 5); the case RL = 0 at 0 is parameter TIMER_ONESHOT_STOPS (log
entry 25). -/
def Obligations.TimerTick : Prop :=
  ∀ d : Dev,
    let n (w : Word) : Nat := w.toNat % 2 ^ 24
    let e := prescalerTick d
    let ticks (t t' : Timer) : Prop :=
      (t.ctrl.getLsbD 0 = false → t' = t) ∧
      (t.ctrl.getLsbD 0 = true → n t.val ≠ 0 → n t'.val = n t.val - 1 ∧ t'.ctrl = t.ctrl ∧ t'.rld = t.rld) ∧
      (t.ctrl.getLsbD 0 = true → n t.val = 0 → t.ctrl.getLsbD 1 = true → n t'.val = n t.rld ∧ t'.ctrl = t.ctrl ∧ t'.rld = t.rld)
    ticks d.tim1 e.tim1 ∧ ticks d.tim2 e.tim2 ∧
      e.ipend.getLsbD 8 = (d.ipend.getLsbD 8 || (d.tim1.ctrl.getLsbD 0 && decide (n d.tim1.val = 0))) ∧
      e.ipend.getLsbD 9 = (d.ipend.getLsbD 9 || (d.tim2.ctrl.getLsbD 0 && decide (n d.tim2.val = 0))) ∧
      (d.tim1.ctrl.getLsbD 4 = true → if n d.wdog = 0 then e.wdogAsserted = true ∧ e.wdog = d.wdog else n e.wdog = n d.wdog - 1) ∧
      (d.tim1.ctrl.getLsbD 4 = false → e.wdog = d.wdog ∧ e.wdogAsserted = d.wdogAsserted)

/-- Word stores to the interrupt registers: level and mask as written, force in bits 15:1, clear takes the named bits from pending;
word loads give mask, pending and force back, clear reads 0 (10_state R74 to R77, R58). Choices: bits 31:16 and 0 of pending and force
are dropped and read 0 (log entry 41), and the clear register reads 0 (R77, 93 I9; log entry 53). -/
def Obligations.InterruptRegisters : Prop :=
  ∀ s rd rs1 op2, Plain s →
    let a := ea s rs1 op2
    let v := s.r rd
    let bits (x : Word) : BitVec 16 := x.extractLsb' 1 15 ++ 0#1
    let stores (d : Dev) : Prop := Completes (exec (.st rd rs1 op2) s) { s with dev := d } 0 0
    let loads (x : Word) : Prop := Completes (exec (.ld rd rs1 op2) s) s rd x
    DsuIdle s a →
      (NoWatch s false true a →
        (a = 0x80000090#32 → stores { s.dev with ilevelMask := v }) ∧ (a = 0x80000098#32 → stores { s.dev with iforce := bits v }) ∧
        (a = 0x8000009C#32 → stores { s.dev with ipend := s.dev.ipend &&& ~~~bits v })) ∧
      (NoWatch s true false a →
        (a = 0x80000090#32 → loads s.dev.ilevelMask) ∧ (a = 0x80000094#32 → loads (0#16 ++ s.dev.ipend)) ∧
        (a = 0x80000098#32 → loads (0#16 ++ s.dev.iforce)) ∧ (a = 0x8000009C#32 → loads 0))
end

