-- ==== Sys2Proof/Laws/Memory.lean ====
section
/-! SUPPORT. Lists in canonical form, and memory over them: read after write, and every memory operation keeps the form. -/

namespace Sys2Proof.Machine

variable {α : Type}

/-! ### Canonical lists -/

theorem sparseGet_erase (d : α) (l : List (Nat × α)) (a b : Nat) :
    sparseGet d (sparseErase l a) b = if b = a then d else sparseGet d l b := by
  induction l with
  | nil => simp [sparseErase, sparseGet]
  | cons p rest ih =>
    obtain ⟨k, v⟩ := p
    by_cases hk : k = a
    · subst hk; by_cases hb : b = k
      · subst hb; simpa [sparseErase] using ih
      · simp [sparseErase, sparseGet, hb, Ne.symm hb, ih]
    · by_cases hb : k = b
      · subst hb; simp [sparseErase, sparseGet, hk]
      · simp [sparseErase, sparseGet, hk, hb, ih]

theorem sparseErase_no_key (l : List (Nat × α)) (a : Nat) : ∀ p ∈ sparseErase l a, p.1 ≠ a := by
  induction l with
  | nil => simp [sparseErase]
  | cons p rest ih =>
    obtain ⟨k, v⟩ := p
    by_cases hk : k = a
    · simpa [sparseErase, hk] using ih
    · simpa [sparseErase, hk] using ih

theorem sparseGet_insert (d v : α) (l : List (Nat × α)) (a b : Nat) (h : ∀ p ∈ l, p.1 ≠ a) :
    sparseGet d (sparseInsert a v l) b = if b = a then v else sparseGet d l b := by
  induction l with
  | nil => simp [sparseInsert, sparseGet, eq_comm]
  | cons p rest ih =>
    obtain ⟨k, w⟩ := p
    have hk : k ≠ a := h (k, w) (by simp)
    have ih := ih fun p hp => h p (by simp [hp])
    by_cases hlt : a < k
    · by_cases hb : b = a
      · simp [sparseInsert, hlt, sparseGet, hb]
      · simp [sparseInsert, hlt, sparseGet, hb, Ne.symm hb]
    · by_cases hb : k = b
      · subst hb; simp [sparseInsert, hlt, sparseGet, hk]
      · simp [sparseInsert, hlt, sparseGet, hb, ih]

variable [DecidableEq α]

/-- Read after write, whatever the list. -/
@[simp] theorem sparseGet_set (d v : α) (l : List (Nat × α)) (a b : Nat) :
    sparseGet d (sparseSet d l a v) b = if b = a then v else sparseGet d l b := by
  unfold sparseSet
  by_cases hv : v = d
  · simp [hv, sparseGet_erase]
  · rw [if_neg hv, sparseGet_insert _ _ _ _ _ (sparseErase_no_key l a), sparseGet_erase]
    split <;> rfl

theorem sparseWfFrom_mono (d : α) (l : List (Nat × α)) {lo lo' : Nat} (hle : lo' ≤ lo) (h : sparseWfFrom d lo l = true) :
    sparseWfFrom d lo' l = true := by
  cases l with
  | nil => rfl
  | cons p rest =>
    obtain ⟨k, v⟩ := p
    simp only [sparseWfFrom, Bool.and_eq_true, decide_eq_true_eq] at h ⊢
    exact ⟨⟨by omega, h.1.2⟩, h.2⟩

theorem sparseWfFrom_erase (d : α) (l : List (Nat × α)) (a lo : Nat) (h : sparseWfFrom d lo l = true) :
    sparseWfFrom d lo (sparseErase l a) = true := by
  induction l generalizing lo with
  | nil => simp [sparseErase, sparseWfFrom]
  | cons p rest ih =>
    obtain ⟨k, v⟩ := p
    simp only [sparseWfFrom, Bool.and_eq_true, decide_eq_true_eq] at h
    have ih := ih _ h.2
    by_cases hk : k = a
    · simp only [sparseErase, hk, if_true]; subst hk
      exact sparseWfFrom_mono d _ (by omega) ih
    · simp only [sparseErase, hk, if_false, sparseWfFrom, Bool.and_eq_true, decide_eq_true_eq]
      exact ⟨h.1, ih⟩

theorem sparseWfFrom_insert (d v : α) (l : List (Nat × α)) (a lo : Nat) (hv : v ≠ d) (hlo : lo ≤ a)
    (hne : ∀ p ∈ l, p.1 ≠ a) (h : sparseWfFrom d lo l = true) : sparseWfFrom d lo (sparseInsert a v l) = true := by
  induction l generalizing lo with
  | nil => simp [sparseInsert, sparseWfFrom, hv, hlo]
  | cons p rest ih =>
    obtain ⟨k, w⟩ := p
    simp only [sparseWfFrom, Bool.and_eq_true, decide_eq_true_eq] at h
    have hk : k ≠ a := hne (k, w) (by simp)
    by_cases hlt : a < k
    · simp only [sparseInsert, hlt, if_true, sparseWfFrom, Bool.and_eq_true, decide_eq_true_eq]
      exact ⟨⟨hlo, hv⟩, ⟨by omega, h.1.2⟩, h.2⟩
    · simp only [sparseInsert, hlt, if_false, sparseWfFrom, Bool.and_eq_true, decide_eq_true_eq]
      exact ⟨h.1, ih (k + 1) (by omega) (fun p hp => hne p (by simp [hp])) h.2⟩

/-- A write keeps the canonical form. -/
theorem sparseWf_set (d v : α) (l : List (Nat × α)) (a : Nat) (h : sparseWf d l = true) : sparseWf d (sparseSet d l a v) = true := by
  unfold sparseSet
  by_cases hv : v = d
  · simpa [hv, sparseWf] using sparseWfFrom_erase d l a 0 h
  · simpa [hv, sparseWf] using
      sparseWfFrom_insert d v _ a 0 hv (Nat.zero_le _) (sparseErase_no_key l a) (sparseWfFrom_erase d l a 0 h)

/-! ### Memory -/

/-- A word written reads back at its four bytes, and no other byte changes. -/
theorem byteAt_putWord (s : State) (a : Nat) (w : Word) (f : BitVec 39) (b : Nat) :
    (s.putWord a w f).byteAt b =
      if b = a then w.extractLsb' 24 8 else if b = a + 1 then w.extractLsb' 16 8 else if b = a + 2 then w.extractLsb' 8 8
      else if b = a + 3 then w.extractLsb' 0 8 else s.byteAt b := by
  simp only [State.byteAt, State.putWord, memPutWord, memPut, sparseGet_set]
  repeat' split
  all_goals first | rfl | omega

theorem byteAt_putWord_of_ne (s : State) (a : Nat) (w : Word) (f : BitVec 39) (b : Nat) (h : b < a ∨ a + 4 ≤ b) :
    (s.putWord a w f).byteAt b = s.byteAt b := by
  rw [byteAt_putWord]
  repeat' rw [if_neg (by omega)]

@[simp] theorem wordAt_putWord_self (s : State) (a : Nat) (w : Word) (f : BitVec 39) : (s.putWord a w f).wordAt a = w := by
  simp only [State.wordAt, byteAt_putWord, wordOfBytes]
  simp only [if_true, Nat.add_eq_left, Nat.reduceEqDiff, if_false, OfNat.ofNat_ne_zero]
  ext i hi
  simp only [BitVec.getElem_append, BitVec.getElem_extractLsb', BitVec.getLsbD_eq_getElem hi, Nat.zero_add]
  repeat' split
  all_goals (try rw [BitVec.getLsbD_eq_getElem (by omega)]); congr 1; try omega

@[simp] theorem flipAt_putWord (s : State) (a b : Nat) (w : Word) (f : BitVec 39) :
    (s.putWord a w f).flipAt b = if b / 4 = a / 4 then f else s.flipAt b := by
  simp [State.flipAt, State.putWord]

/-- Writing back the word that stands there changes no byte. -/
theorem byteAt_putWord_wordAt (s : State) (a : Nat) (f : BitVec 39) (b : Nat) :
    (s.putWord a (s.wordAt a) f).byteAt b = s.byteAt b := by
  have e (x0 x1 x2 x3 : Byte) : (wordOfBytes x0 x1 x2 x3).extractLsb' 24 8 = x0 ∧ (wordOfBytes x0 x1 x2 x3).extractLsb' 16 8 = x1 ∧
      (wordOfBytes x0 x1 x2 x3).extractLsb' 8 8 = x2 ∧ (wordOfBytes x0 x1 x2 x3).extractLsb' 0 8 = x3 := by
    refine ⟨?_, ?_, ?_, ?_⟩ <;>
    · ext i hi
      simp only [wordOfBytes, BitVec.getElem_extractLsb', BitVec.getLsbD_append, Nat.zero_add]
      repeat' split
      all_goals first | omega | (rw [← BitVec.getLsbD_eq_getElem]; try congr 1; try omega) 
  have h := e (s.byteAt a) (s.byteAt (a + 1)) (s.byteAt (a + 2)) (s.byteAt (a + 3))
  rw [byteAt_putWord]
  repeat' split
  · subst b; exact h.1
  · subst b; exact h.2.1
  · subst b; exact h.2.2.1
  · subst b; exact h.2.2.2
  · rfl

theorem memPutWord_wf (m : List Host.Cell) (a : Nat) (w : Word) (h : sparseWf emptyByte m = true) :
    sparseWf emptyByte (memPutWord m a w) = true := by
  unfold memPutWord memPut
  repeat' apply sparseWf_set
  exact h

/-- `putWord` keeps the canonical form; every memory operation writes through it. -/
theorem putWord_wf (s : State) (a : Nat) (w : Word) (f : BitVec 39) (h : Memory.wf s = true) : Memory.wf (s.putWord a w f) = true := by
  simp only [Memory.wf, Bool.and_eq_true, State.putWord] at h ⊢
  exact ⟨memPutWord_wf _ _ _ h.1, sparseWf_set _ _ _ _ h.2⟩

end Sys2Proof.Machine
end

