-- ==== Sys2Proof/Laws/State.lean ====
section
/-! SUPPORT. One lemma per field per update: what each named update of the state does to each field. -/

namespace Sys2Proof.Machine

variable (s : State)

/-! `advance` -/

@[simp] theorem advance_ireg : (advance s).ireg = s.ireg := rfl
@[simp] theorem advance_freg : (advance s).freg = s.freg := rfl
@[simp] theorem advance_pc : (advance s).pc = s.npc := rfl
@[simp] theorem advance_npc : (advance s).npc = s.npc + 4 := rfl
@[simp] theorem advance_psr : (advance s).psr = s.psr := rfl
@[simp] theorem advance_wim : (advance s).wim = s.wim := rfl
@[simp] theorem advance_tba : (advance s).tba = s.tba := rfl
@[simp] theorem advance_tt : (advance s).tt = s.tt := rfl
@[simp] theorem advance_y : (advance s).y = s.y := rfl
@[simp] theorem advance_asr16 : (advance s).asr16 = s.asr16 := rfl
@[simp] theorem advance_asr17 : (advance s).asr17 = s.asr17 := rfl
@[simp] theorem advance_asr18 : (advance s).asr18 = s.asr18 := rfl
@[simp] theorem advance_wp : (advance s).wp = s.wp := rfl
@[simp] theorem advance_fsr : (advance s).fsr = s.fsr := rfl
@[simp] theorem advance_annul : (advance s).annul = s.annul := rfl
@[simp] theorem advance_errorMode : (advance s).errorMode = s.errorMode := rfl
@[simp] theorem advance_debugMode : (advance s).debugMode = s.debugMode := rfl
@[simp] theorem advance_powerDown : (advance s).powerDown = s.powerDown := rfl
@[simp] theorem advance_mem : (advance s).mem = s.mem := rfl
@[simp] theorem advance_memFlip : (advance s).memFlip = s.memFlip := rfl
@[simp] theorem advance_icache : (advance s).icache = s.icache := rfl
@[simp] theorem advance_dcache : (advance s).dcache = s.dcache := rfl
@[simp] theorem advance_dev : (advance s).dev = s.dev := rfl
@[simp] theorem advance_pci : (advance s).pci = s.pci := rfl
@[simp] theorem advance_dsu : (advance s).dsu = s.dsu := rfl
@[simp] theorem advance_trapped : (advance s).trapped = s.trapped := rfl
@[simp] theorem advance_freeCtr : (advance s).freeCtr = s.freeCtr := rfl
@[simp] theorem advance_clk : (advance s).clk = s.clk := rfl
@[simp] theorem advance_pins : (advance s).pins = s.pins := rfl
@[simp] theorem advance_env : (advance s).env = s.env := rfl
@[simp] theorem advance_busAnswers : (advance s).busAnswers = s.busAnswers := rfl
@[simp] theorem advance_lines : (advance s).lines = s.lines := rfl
@[simp] theorem advance_out : (advance s).out = s.out := rfl

/-! `jump` -/

@[simp] theorem jump_ireg (a : Word) : (jump s a).ireg = s.ireg := rfl
@[simp] theorem jump_freg (a : Word) : (jump s a).freg = s.freg := rfl
@[simp] theorem jump_pc (a : Word) : (jump s a).pc = s.npc := rfl
@[simp] theorem jump_npc (a : Word) : (jump s a).npc = a := rfl
@[simp] theorem jump_psr (a : Word) : (jump s a).psr = s.psr := rfl
@[simp] theorem jump_wim (a : Word) : (jump s a).wim = s.wim := rfl
@[simp] theorem jump_tba (a : Word) : (jump s a).tba = s.tba := rfl
@[simp] theorem jump_tt (a : Word) : (jump s a).tt = s.tt := rfl
@[simp] theorem jump_y (a : Word) : (jump s a).y = s.y := rfl
@[simp] theorem jump_asr16 (a : Word) : (jump s a).asr16 = s.asr16 := rfl
@[simp] theorem jump_asr17 (a : Word) : (jump s a).asr17 = s.asr17 := rfl
@[simp] theorem jump_asr18 (a : Word) : (jump s a).asr18 = s.asr18 := rfl
@[simp] theorem jump_wp (a : Word) : (jump s a).wp = s.wp := rfl
@[simp] theorem jump_fsr (a : Word) : (jump s a).fsr = s.fsr := rfl
@[simp] theorem jump_annul (a : Word) : (jump s a).annul = s.annul := rfl
@[simp] theorem jump_errorMode (a : Word) : (jump s a).errorMode = s.errorMode := rfl
@[simp] theorem jump_debugMode (a : Word) : (jump s a).debugMode = s.debugMode := rfl
@[simp] theorem jump_powerDown (a : Word) : (jump s a).powerDown = s.powerDown := rfl
@[simp] theorem jump_mem (a : Word) : (jump s a).mem = s.mem := rfl
@[simp] theorem jump_memFlip (a : Word) : (jump s a).memFlip = s.memFlip := rfl
@[simp] theorem jump_icache (a : Word) : (jump s a).icache = s.icache := rfl
@[simp] theorem jump_dcache (a : Word) : (jump s a).dcache = s.dcache := rfl
@[simp] theorem jump_dev (a : Word) : (jump s a).dev = s.dev := rfl
@[simp] theorem jump_pci (a : Word) : (jump s a).pci = s.pci := rfl
@[simp] theorem jump_dsu (a : Word) : (jump s a).dsu = s.dsu := rfl
@[simp] theorem jump_trapped (a : Word) : (jump s a).trapped = s.trapped := rfl
@[simp] theorem jump_freeCtr (a : Word) : (jump s a).freeCtr = s.freeCtr := rfl
@[simp] theorem jump_clk (a : Word) : (jump s a).clk = s.clk := rfl
@[simp] theorem jump_pins (a : Word) : (jump s a).pins = s.pins := rfl
@[simp] theorem jump_env (a : Word) : (jump s a).env = s.env := rfl
@[simp] theorem jump_busAnswers (a : Word) : (jump s a).busAnswers = s.busAnswers := rfl
@[simp] theorem jump_lines (a : Word) : (jump s a).lines = s.lines := rfl
@[simp] theorem jump_out (a : Word) : (jump s a).out = s.out := rfl

/-! `annulNext` -/

@[simp] theorem annulNext_ireg : (annulNext s).ireg = s.ireg := rfl
@[simp] theorem annulNext_freg : (annulNext s).freg = s.freg := rfl
@[simp] theorem annulNext_pc : (annulNext s).pc = s.pc := rfl
@[simp] theorem annulNext_npc : (annulNext s).npc = s.npc := rfl
@[simp] theorem annulNext_psr : (annulNext s).psr = s.psr := rfl
@[simp] theorem annulNext_wim : (annulNext s).wim = s.wim := rfl
@[simp] theorem annulNext_tba : (annulNext s).tba = s.tba := rfl
@[simp] theorem annulNext_tt : (annulNext s).tt = s.tt := rfl
@[simp] theorem annulNext_y : (annulNext s).y = s.y := rfl
@[simp] theorem annulNext_asr16 : (annulNext s).asr16 = s.asr16 := rfl
@[simp] theorem annulNext_asr17 : (annulNext s).asr17 = s.asr17 := rfl
@[simp] theorem annulNext_asr18 : (annulNext s).asr18 = s.asr18 := rfl
@[simp] theorem annulNext_wp : (annulNext s).wp = s.wp := rfl
@[simp] theorem annulNext_fsr : (annulNext s).fsr = s.fsr := rfl
@[simp] theorem annulNext_annul : (annulNext s).annul = true := rfl
@[simp] theorem annulNext_errorMode : (annulNext s).errorMode = s.errorMode := rfl
@[simp] theorem annulNext_debugMode : (annulNext s).debugMode = s.debugMode := rfl
@[simp] theorem annulNext_powerDown : (annulNext s).powerDown = s.powerDown := rfl
@[simp] theorem annulNext_mem : (annulNext s).mem = s.mem := rfl
@[simp] theorem annulNext_memFlip : (annulNext s).memFlip = s.memFlip := rfl
@[simp] theorem annulNext_icache : (annulNext s).icache = s.icache := rfl
@[simp] theorem annulNext_dcache : (annulNext s).dcache = s.dcache := rfl
@[simp] theorem annulNext_dev : (annulNext s).dev = s.dev := rfl
@[simp] theorem annulNext_pci : (annulNext s).pci = s.pci := rfl
@[simp] theorem annulNext_dsu : (annulNext s).dsu = s.dsu := rfl
@[simp] theorem annulNext_trapped : (annulNext s).trapped = s.trapped := rfl
@[simp] theorem annulNext_freeCtr : (annulNext s).freeCtr = s.freeCtr := rfl
@[simp] theorem annulNext_clk : (annulNext s).clk = s.clk := rfl
@[simp] theorem annulNext_pins : (annulNext s).pins = s.pins := rfl
@[simp] theorem annulNext_env : (annulNext s).env = s.env := rfl
@[simp] theorem annulNext_busAnswers : (annulNext s).busAnswers = s.busAnswers := rfl
@[simp] theorem annulNext_lines : (annulNext s).lines = s.lines := rfl
@[simp] theorem annulNext_out : (annulNext s).out = s.out := rfl

/-! `setIcc` -/

@[simp] theorem setIcc_ireg (x : Icc) : (setIcc s x).ireg = s.ireg := rfl
@[simp] theorem setIcc_freg (x : Icc) : (setIcc s x).freg = s.freg := rfl
@[simp] theorem setIcc_pc (x : Icc) : (setIcc s x).pc = s.pc := rfl
@[simp] theorem setIcc_npc (x : Icc) : (setIcc s x).npc = s.npc := rfl
@[simp] theorem setIcc_psr (x : Icc) : (setIcc s x).psr = { s.psr with n := x.n, z := x.z, v := x.v, c := x.c } := rfl
@[simp] theorem setIcc_wim (x : Icc) : (setIcc s x).wim = s.wim := rfl
@[simp] theorem setIcc_tba (x : Icc) : (setIcc s x).tba = s.tba := rfl
@[simp] theorem setIcc_tt (x : Icc) : (setIcc s x).tt = s.tt := rfl
@[simp] theorem setIcc_y (x : Icc) : (setIcc s x).y = s.y := rfl
@[simp] theorem setIcc_asr16 (x : Icc) : (setIcc s x).asr16 = s.asr16 := rfl
@[simp] theorem setIcc_asr17 (x : Icc) : (setIcc s x).asr17 = s.asr17 := rfl
@[simp] theorem setIcc_asr18 (x : Icc) : (setIcc s x).asr18 = s.asr18 := rfl
@[simp] theorem setIcc_wp (x : Icc) : (setIcc s x).wp = s.wp := rfl
@[simp] theorem setIcc_fsr (x : Icc) : (setIcc s x).fsr = s.fsr := rfl
@[simp] theorem setIcc_annul (x : Icc) : (setIcc s x).annul = s.annul := rfl
@[simp] theorem setIcc_errorMode (x : Icc) : (setIcc s x).errorMode = s.errorMode := rfl
@[simp] theorem setIcc_debugMode (x : Icc) : (setIcc s x).debugMode = s.debugMode := rfl
@[simp] theorem setIcc_powerDown (x : Icc) : (setIcc s x).powerDown = s.powerDown := rfl
@[simp] theorem setIcc_mem (x : Icc) : (setIcc s x).mem = s.mem := rfl
@[simp] theorem setIcc_memFlip (x : Icc) : (setIcc s x).memFlip = s.memFlip := rfl
@[simp] theorem setIcc_icache (x : Icc) : (setIcc s x).icache = s.icache := rfl
@[simp] theorem setIcc_dcache (x : Icc) : (setIcc s x).dcache = s.dcache := rfl
@[simp] theorem setIcc_dev (x : Icc) : (setIcc s x).dev = s.dev := rfl
@[simp] theorem setIcc_pci (x : Icc) : (setIcc s x).pci = s.pci := rfl
@[simp] theorem setIcc_dsu (x : Icc) : (setIcc s x).dsu = s.dsu := rfl
@[simp] theorem setIcc_trapped (x : Icc) : (setIcc s x).trapped = s.trapped := rfl
@[simp] theorem setIcc_freeCtr (x : Icc) : (setIcc s x).freeCtr = s.freeCtr := rfl
@[simp] theorem setIcc_clk (x : Icc) : (setIcc s x).clk = s.clk := rfl
@[simp] theorem setIcc_pins (x : Icc) : (setIcc s x).pins = s.pins := rfl
@[simp] theorem setIcc_env (x : Icc) : (setIcc s x).env = s.env := rfl
@[simp] theorem setIcc_busAnswers (x : Icc) : (setIcc s x).busAnswers = s.busAnswers := rfl
@[simp] theorem setIcc_lines (x : Icc) : (setIcc s x).lines = s.lines := rfl
@[simp] theorem setIcc_out (x : Icc) : (setIcc s x).out = s.out := rfl

/-! `writeF` -/

@[simp] theorem writeF_ireg (n : RegNum) (v : Word) : (writeF s n v).ireg = s.ireg := rfl
@[simp] theorem writeF_freg (n : RegNum) (v : Word) : (writeF s n v).freg = s.freg.set (fregIndex n).val { data := v, flip := 0 } (fregIndex n).isLt := rfl
@[simp] theorem writeF_pc (n : RegNum) (v : Word) : (writeF s n v).pc = s.pc := rfl
@[simp] theorem writeF_npc (n : RegNum) (v : Word) : (writeF s n v).npc = s.npc := rfl
@[simp] theorem writeF_psr (n : RegNum) (v : Word) : (writeF s n v).psr = s.psr := rfl
@[simp] theorem writeF_wim (n : RegNum) (v : Word) : (writeF s n v).wim = s.wim := rfl
@[simp] theorem writeF_tba (n : RegNum) (v : Word) : (writeF s n v).tba = s.tba := rfl
@[simp] theorem writeF_tt (n : RegNum) (v : Word) : (writeF s n v).tt = s.tt := rfl
@[simp] theorem writeF_y (n : RegNum) (v : Word) : (writeF s n v).y = s.y := rfl
@[simp] theorem writeF_asr16 (n : RegNum) (v : Word) : (writeF s n v).asr16 = s.asr16 := rfl
@[simp] theorem writeF_asr17 (n : RegNum) (v : Word) : (writeF s n v).asr17 = s.asr17 := rfl
@[simp] theorem writeF_asr18 (n : RegNum) (v : Word) : (writeF s n v).asr18 = s.asr18 := rfl
@[simp] theorem writeF_wp (n : RegNum) (v : Word) : (writeF s n v).wp = s.wp := rfl
@[simp] theorem writeF_fsr (n : RegNum) (v : Word) : (writeF s n v).fsr = s.fsr := rfl
@[simp] theorem writeF_annul (n : RegNum) (v : Word) : (writeF s n v).annul = s.annul := rfl
@[simp] theorem writeF_errorMode (n : RegNum) (v : Word) : (writeF s n v).errorMode = s.errorMode := rfl
@[simp] theorem writeF_debugMode (n : RegNum) (v : Word) : (writeF s n v).debugMode = s.debugMode := rfl
@[simp] theorem writeF_powerDown (n : RegNum) (v : Word) : (writeF s n v).powerDown = s.powerDown := rfl
@[simp] theorem writeF_mem (n : RegNum) (v : Word) : (writeF s n v).mem = s.mem := rfl
@[simp] theorem writeF_memFlip (n : RegNum) (v : Word) : (writeF s n v).memFlip = s.memFlip := rfl
@[simp] theorem writeF_icache (n : RegNum) (v : Word) : (writeF s n v).icache = s.icache := rfl
@[simp] theorem writeF_dcache (n : RegNum) (v : Word) : (writeF s n v).dcache = s.dcache := rfl
@[simp] theorem writeF_dev (n : RegNum) (v : Word) : (writeF s n v).dev = s.dev := rfl
@[simp] theorem writeF_pci (n : RegNum) (v : Word) : (writeF s n v).pci = s.pci := rfl
@[simp] theorem writeF_dsu (n : RegNum) (v : Word) : (writeF s n v).dsu = s.dsu := rfl
@[simp] theorem writeF_trapped (n : RegNum) (v : Word) : (writeF s n v).trapped = s.trapped := rfl
@[simp] theorem writeF_freeCtr (n : RegNum) (v : Word) : (writeF s n v).freeCtr = s.freeCtr := rfl
@[simp] theorem writeF_clk (n : RegNum) (v : Word) : (writeF s n v).clk = s.clk := rfl
@[simp] theorem writeF_pins (n : RegNum) (v : Word) : (writeF s n v).pins = s.pins := rfl
@[simp] theorem writeF_env (n : RegNum) (v : Word) : (writeF s n v).env = s.env := rfl
@[simp] theorem writeF_busAnswers (n : RegNum) (v : Word) : (writeF s n v).busAnswers = s.busAnswers := rfl
@[simp] theorem writeF_lines (n : RegNum) (v : Word) : (writeF s n v).lines = s.lines := rfl
@[simp] theorem writeF_out (n : RegNum) (v : Word) : (writeF s n v).out = s.out := rfl

/-! `putWord` -/

@[simp] theorem putWord_ireg (a : Nat) (w : Word) (f : BitVec 39) : (s.putWord a w f).ireg = s.ireg := rfl
@[simp] theorem putWord_freg (a : Nat) (w : Word) (f : BitVec 39) : (s.putWord a w f).freg = s.freg := rfl
@[simp] theorem putWord_pc (a : Nat) (w : Word) (f : BitVec 39) : (s.putWord a w f).pc = s.pc := rfl
@[simp] theorem putWord_npc (a : Nat) (w : Word) (f : BitVec 39) : (s.putWord a w f).npc = s.npc := rfl
@[simp] theorem putWord_psr (a : Nat) (w : Word) (f : BitVec 39) : (s.putWord a w f).psr = s.psr := rfl
@[simp] theorem putWord_wim (a : Nat) (w : Word) (f : BitVec 39) : (s.putWord a w f).wim = s.wim := rfl
@[simp] theorem putWord_tba (a : Nat) (w : Word) (f : BitVec 39) : (s.putWord a w f).tba = s.tba := rfl
@[simp] theorem putWord_tt (a : Nat) (w : Word) (f : BitVec 39) : (s.putWord a w f).tt = s.tt := rfl
@[simp] theorem putWord_y (a : Nat) (w : Word) (f : BitVec 39) : (s.putWord a w f).y = s.y := rfl
@[simp] theorem putWord_asr16 (a : Nat) (w : Word) (f : BitVec 39) : (s.putWord a w f).asr16 = s.asr16 := rfl
@[simp] theorem putWord_asr17 (a : Nat) (w : Word) (f : BitVec 39) : (s.putWord a w f).asr17 = s.asr17 := rfl
@[simp] theorem putWord_asr18 (a : Nat) (w : Word) (f : BitVec 39) : (s.putWord a w f).asr18 = s.asr18 := rfl
@[simp] theorem putWord_wp (a : Nat) (w : Word) (f : BitVec 39) : (s.putWord a w f).wp = s.wp := rfl
@[simp] theorem putWord_fsr (a : Nat) (w : Word) (f : BitVec 39) : (s.putWord a w f).fsr = s.fsr := rfl
@[simp] theorem putWord_annul (a : Nat) (w : Word) (f : BitVec 39) : (s.putWord a w f).annul = s.annul := rfl
@[simp] theorem putWord_errorMode (a : Nat) (w : Word) (f : BitVec 39) : (s.putWord a w f).errorMode = s.errorMode := rfl
@[simp] theorem putWord_debugMode (a : Nat) (w : Word) (f : BitVec 39) : (s.putWord a w f).debugMode = s.debugMode := rfl
@[simp] theorem putWord_powerDown (a : Nat) (w : Word) (f : BitVec 39) : (s.putWord a w f).powerDown = s.powerDown := rfl
@[simp] theorem putWord_mem (a : Nat) (w : Word) (f : BitVec 39) : (s.putWord a w f).mem = memPutWord s.mem a w := rfl
@[simp] theorem putWord_memFlip (a : Nat) (w : Word) (f : BitVec 39) : (s.putWord a w f).memFlip = sparseSet 0#39 s.memFlip (a / 4) f := rfl
@[simp] theorem putWord_icache (a : Nat) (w : Word) (f : BitVec 39) : (s.putWord a w f).icache = s.icache := rfl
@[simp] theorem putWord_dcache (a : Nat) (w : Word) (f : BitVec 39) : (s.putWord a w f).dcache = s.dcache := rfl
@[simp] theorem putWord_dev (a : Nat) (w : Word) (f : BitVec 39) : (s.putWord a w f).dev = s.dev := rfl
@[simp] theorem putWord_pci (a : Nat) (w : Word) (f : BitVec 39) : (s.putWord a w f).pci = s.pci := rfl
@[simp] theorem putWord_dsu (a : Nat) (w : Word) (f : BitVec 39) : (s.putWord a w f).dsu = s.dsu := rfl
@[simp] theorem putWord_trapped (a : Nat) (w : Word) (f : BitVec 39) : (s.putWord a w f).trapped = s.trapped := rfl
@[simp] theorem putWord_freeCtr (a : Nat) (w : Word) (f : BitVec 39) : (s.putWord a w f).freeCtr = s.freeCtr := rfl
@[simp] theorem putWord_clk (a : Nat) (w : Word) (f : BitVec 39) : (s.putWord a w f).clk = s.clk := rfl
@[simp] theorem putWord_pins (a : Nat) (w : Word) (f : BitVec 39) : (s.putWord a w f).pins = s.pins := rfl
@[simp] theorem putWord_env (a : Nat) (w : Word) (f : BitVec 39) : (s.putWord a w f).env = s.env := rfl
@[simp] theorem putWord_busAnswers (a : Nat) (w : Word) (f : BitVec 39) : (s.putWord a w f).busAnswers = s.busAnswers := rfl
@[simp] theorem putWord_lines (a : Nat) (w : Word) (f : BitVec 39) : (s.putWord a w f).lines = s.lines := rfl
@[simp] theorem putWord_out (a : Nat) (w : Word) (f : BitVec 39) : (s.putWord a w f).out = s.out := rfl

/-! `pend` -/

@[simp] theorem pend_ireg (n : Nat) : (s.pend n).ireg = s.ireg := rfl
@[simp] theorem pend_freg (n : Nat) : (s.pend n).freg = s.freg := rfl
@[simp] theorem pend_pc (n : Nat) : (s.pend n).pc = s.pc := rfl
@[simp] theorem pend_npc (n : Nat) : (s.pend n).npc = s.npc := rfl
@[simp] theorem pend_psr (n : Nat) : (s.pend n).psr = s.psr := rfl
@[simp] theorem pend_wim (n : Nat) : (s.pend n).wim = s.wim := rfl
@[simp] theorem pend_tba (n : Nat) : (s.pend n).tba = s.tba := rfl
@[simp] theorem pend_tt (n : Nat) : (s.pend n).tt = s.tt := rfl
@[simp] theorem pend_y (n : Nat) : (s.pend n).y = s.y := rfl
@[simp] theorem pend_asr16 (n : Nat) : (s.pend n).asr16 = s.asr16 := rfl
@[simp] theorem pend_asr17 (n : Nat) : (s.pend n).asr17 = s.asr17 := rfl
@[simp] theorem pend_asr18 (n : Nat) : (s.pend n).asr18 = s.asr18 := rfl
@[simp] theorem pend_wp (n : Nat) : (s.pend n).wp = s.wp := rfl
@[simp] theorem pend_fsr (n : Nat) : (s.pend n).fsr = s.fsr := rfl
@[simp] theorem pend_annul (n : Nat) : (s.pend n).annul = s.annul := rfl
@[simp] theorem pend_errorMode (n : Nat) : (s.pend n).errorMode = s.errorMode := rfl
@[simp] theorem pend_debugMode (n : Nat) : (s.pend n).debugMode = s.debugMode := rfl
@[simp] theorem pend_powerDown (n : Nat) : (s.pend n).powerDown = s.powerDown := rfl
@[simp] theorem pend_mem (n : Nat) : (s.pend n).mem = s.mem := rfl
@[simp] theorem pend_memFlip (n : Nat) : (s.pend n).memFlip = s.memFlip := rfl
@[simp] theorem pend_icache (n : Nat) : (s.pend n).icache = s.icache := rfl
@[simp] theorem pend_dcache (n : Nat) : (s.pend n).dcache = s.dcache := rfl
@[simp] theorem pend_dev (n : Nat) : (s.pend n).dev = s.dev.pend n := rfl
@[simp] theorem pend_pci (n : Nat) : (s.pend n).pci = s.pci := rfl
@[simp] theorem pend_dsu (n : Nat) : (s.pend n).dsu = s.dsu := rfl
@[simp] theorem pend_trapped (n : Nat) : (s.pend n).trapped = s.trapped := rfl
@[simp] theorem pend_freeCtr (n : Nat) : (s.pend n).freeCtr = s.freeCtr := rfl
@[simp] theorem pend_clk (n : Nat) : (s.pend n).clk = s.clk := rfl
@[simp] theorem pend_pins (n : Nat) : (s.pend n).pins = s.pins := rfl
@[simp] theorem pend_env (n : Nat) : (s.pend n).env = s.env := rfl
@[simp] theorem pend_busAnswers (n : Nat) : (s.pend n).busAnswers = s.busAnswers := rfl
@[simp] theorem pend_lines (n : Nat) : (s.pend n).lines = s.lines := rfl
@[simp] theorem pend_out (n : Nat) : (s.pend n).out = s.out := rfl

/-! `latchTcb` -/

@[simp] theorem latchTcb_ireg (c : BitVec 7) : (s.latchTcb c).ireg = s.ireg := rfl
@[simp] theorem latchTcb_freg (c : BitVec 7) : (s.latchTcb c).freg = s.freg := rfl
@[simp] theorem latchTcb_pc (c : BitVec 7) : (s.latchTcb c).pc = s.pc := rfl
@[simp] theorem latchTcb_npc (c : BitVec 7) : (s.latchTcb c).npc = s.npc := rfl
@[simp] theorem latchTcb_psr (c : BitVec 7) : (s.latchTcb c).psr = s.psr := rfl
@[simp] theorem latchTcb_wim (c : BitVec 7) : (s.latchTcb c).wim = s.wim := rfl
@[simp] theorem latchTcb_tba (c : BitVec 7) : (s.latchTcb c).tba = s.tba := rfl
@[simp] theorem latchTcb_tt (c : BitVec 7) : (s.latchTcb c).tt = s.tt := rfl
@[simp] theorem latchTcb_y (c : BitVec 7) : (s.latchTcb c).y = s.y := rfl
@[simp] theorem latchTcb_asr16 (c : BitVec 7) : (s.latchTcb c).asr16 = s.asr16 := rfl
@[simp] theorem latchTcb_asr17 (c : BitVec 7) : (s.latchTcb c).asr17 = s.asr17 := rfl
@[simp] theorem latchTcb_asr18 (c : BitVec 7) : (s.latchTcb c).asr18 = s.asr18 := rfl
@[simp] theorem latchTcb_wp (c : BitVec 7) : (s.latchTcb c).wp = s.wp := rfl
@[simp] theorem latchTcb_fsr (c : BitVec 7) : (s.latchTcb c).fsr = s.fsr := rfl
@[simp] theorem latchTcb_annul (c : BitVec 7) : (s.latchTcb c).annul = s.annul := rfl
@[simp] theorem latchTcb_errorMode (c : BitVec 7) : (s.latchTcb c).errorMode = s.errorMode := rfl
@[simp] theorem latchTcb_debugMode (c : BitVec 7) : (s.latchTcb c).debugMode = s.debugMode := rfl
@[simp] theorem latchTcb_powerDown (c : BitVec 7) : (s.latchTcb c).powerDown = s.powerDown := rfl
@[simp] theorem latchTcb_mem (c : BitVec 7) : (s.latchTcb c).mem = s.mem := rfl
@[simp] theorem latchTcb_memFlip (c : BitVec 7) : (s.latchTcb c).memFlip = s.memFlip := rfl
@[simp] theorem latchTcb_icache (c : BitVec 7) : (s.latchTcb c).icache = s.icache := rfl
@[simp] theorem latchTcb_dcache (c : BitVec 7) : (s.latchTcb c).dcache = s.dcache := rfl
@[simp] theorem latchTcb_pci (c : BitVec 7) : (s.latchTcb c).pci = s.pci := rfl
@[simp] theorem latchTcb_dsu (c : BitVec 7) : (s.latchTcb c).dsu = s.dsu := rfl
@[simp] theorem latchTcb_trapped (c : BitVec 7) : (s.latchTcb c).trapped = s.trapped := rfl
@[simp] theorem latchTcb_freeCtr (c : BitVec 7) : (s.latchTcb c).freeCtr = s.freeCtr := rfl
@[simp] theorem latchTcb_clk (c : BitVec 7) : (s.latchTcb c).clk = s.clk := rfl
@[simp] theorem latchTcb_pins (c : BitVec 7) : (s.latchTcb c).pins = s.pins := rfl
@[simp] theorem latchTcb_env (c : BitVec 7) : (s.latchTcb c).env = s.env := rfl
@[simp] theorem latchTcb_busAnswers (c : BitVec 7) : (s.latchTcb c).busAnswers = s.busAnswers := rfl
@[simp] theorem latchTcb_lines (c : BitVec 7) : (s.latchTcb c).lines = s.lines := rfl
@[simp] theorem latchTcb_out (c : BitVec 7) : (s.latchTcb c).out = s.out := rfl

/-! `writeR` -/

@[simp] theorem writeR_freg (n : RegNum) (v : Word) : (writeR s n v).freg = s.freg := by unfold writeR; split <;> rfl
@[simp] theorem writeR_pc (n : RegNum) (v : Word) : (writeR s n v).pc = s.pc := by unfold writeR; split <;> rfl
@[simp] theorem writeR_npc (n : RegNum) (v : Word) : (writeR s n v).npc = s.npc := by unfold writeR; split <;> rfl
@[simp] theorem writeR_psr (n : RegNum) (v : Word) : (writeR s n v).psr = s.psr := by unfold writeR; split <;> rfl
@[simp] theorem writeR_wim (n : RegNum) (v : Word) : (writeR s n v).wim = s.wim := by unfold writeR; split <;> rfl
@[simp] theorem writeR_tba (n : RegNum) (v : Word) : (writeR s n v).tba = s.tba := by unfold writeR; split <;> rfl
@[simp] theorem writeR_tt (n : RegNum) (v : Word) : (writeR s n v).tt = s.tt := by unfold writeR; split <;> rfl
@[simp] theorem writeR_y (n : RegNum) (v : Word) : (writeR s n v).y = s.y := by unfold writeR; split <;> rfl
@[simp] theorem writeR_asr16 (n : RegNum) (v : Word) : (writeR s n v).asr16 = s.asr16 := by unfold writeR; split <;> rfl
@[simp] theorem writeR_asr17 (n : RegNum) (v : Word) : (writeR s n v).asr17 = s.asr17 := by unfold writeR; split <;> rfl
@[simp] theorem writeR_asr18 (n : RegNum) (v : Word) : (writeR s n v).asr18 = s.asr18 := by unfold writeR; split <;> rfl
@[simp] theorem writeR_wp (n : RegNum) (v : Word) : (writeR s n v).wp = s.wp := by unfold writeR; split <;> rfl
@[simp] theorem writeR_fsr (n : RegNum) (v : Word) : (writeR s n v).fsr = s.fsr := by unfold writeR; split <;> rfl
@[simp] theorem writeR_annul (n : RegNum) (v : Word) : (writeR s n v).annul = s.annul := by unfold writeR; split <;> rfl
@[simp] theorem writeR_errorMode (n : RegNum) (v : Word) : (writeR s n v).errorMode = s.errorMode := by unfold writeR; split <;> rfl
@[simp] theorem writeR_debugMode (n : RegNum) (v : Word) : (writeR s n v).debugMode = s.debugMode := by unfold writeR; split <;> rfl
@[simp] theorem writeR_powerDown (n : RegNum) (v : Word) : (writeR s n v).powerDown = s.powerDown := by unfold writeR; split <;> rfl
@[simp] theorem writeR_mem (n : RegNum) (v : Word) : (writeR s n v).mem = s.mem := by unfold writeR; split <;> rfl
@[simp] theorem writeR_memFlip (n : RegNum) (v : Word) : (writeR s n v).memFlip = s.memFlip := by unfold writeR; split <;> rfl
@[simp] theorem writeR_icache (n : RegNum) (v : Word) : (writeR s n v).icache = s.icache := by unfold writeR; split <;> rfl
@[simp] theorem writeR_dcache (n : RegNum) (v : Word) : (writeR s n v).dcache = s.dcache := by unfold writeR; split <;> rfl
@[simp] theorem writeR_dev (n : RegNum) (v : Word) : (writeR s n v).dev = s.dev := by unfold writeR; split <;> rfl
@[simp] theorem writeR_pci (n : RegNum) (v : Word) : (writeR s n v).pci = s.pci := by unfold writeR; split <;> rfl
@[simp] theorem writeR_dsu (n : RegNum) (v : Word) : (writeR s n v).dsu = s.dsu := by unfold writeR; split <;> rfl
@[simp] theorem writeR_trapped (n : RegNum) (v : Word) : (writeR s n v).trapped = s.trapped := by unfold writeR; split <;> rfl
@[simp] theorem writeR_freeCtr (n : RegNum) (v : Word) : (writeR s n v).freeCtr = s.freeCtr := by unfold writeR; split <;> rfl
@[simp] theorem writeR_clk (n : RegNum) (v : Word) : (writeR s n v).clk = s.clk := by unfold writeR; split <;> rfl
@[simp] theorem writeR_pins (n : RegNum) (v : Word) : (writeR s n v).pins = s.pins := by unfold writeR; split <;> rfl
@[simp] theorem writeR_env (n : RegNum) (v : Word) : (writeR s n v).env = s.env := by unfold writeR; split <;> rfl
@[simp] theorem writeR_busAnswers (n : RegNum) (v : Word) : (writeR s n v).busAnswers = s.busAnswers := by unfold writeR; split <;> rfl
@[simp] theorem writeR_lines (n : RegNum) (v : Word) : (writeR s n v).lines = s.lines := by unfold writeR; split <;> rfl
@[simp] theorem writeR_out (n : RegNum) (v : Word) : (writeR s n v).out = s.out := by unfold writeR; split <;> rfl

/-! `setCache` -/

@[simp] theorem setCache_ireg (c : CacheId) (x : Cache) : (s.setCache c x).ireg = s.ireg := by cases c <;> rfl
@[simp] theorem setCache_freg (c : CacheId) (x : Cache) : (s.setCache c x).freg = s.freg := by cases c <;> rfl
@[simp] theorem setCache_pc (c : CacheId) (x : Cache) : (s.setCache c x).pc = s.pc := by cases c <;> rfl
@[simp] theorem setCache_npc (c : CacheId) (x : Cache) : (s.setCache c x).npc = s.npc := by cases c <;> rfl
@[simp] theorem setCache_psr (c : CacheId) (x : Cache) : (s.setCache c x).psr = s.psr := by cases c <;> rfl
@[simp] theorem setCache_wim (c : CacheId) (x : Cache) : (s.setCache c x).wim = s.wim := by cases c <;> rfl
@[simp] theorem setCache_tba (c : CacheId) (x : Cache) : (s.setCache c x).tba = s.tba := by cases c <;> rfl
@[simp] theorem setCache_tt (c : CacheId) (x : Cache) : (s.setCache c x).tt = s.tt := by cases c <;> rfl
@[simp] theorem setCache_y (c : CacheId) (x : Cache) : (s.setCache c x).y = s.y := by cases c <;> rfl
@[simp] theorem setCache_asr16 (c : CacheId) (x : Cache) : (s.setCache c x).asr16 = s.asr16 := by cases c <;> rfl
@[simp] theorem setCache_asr17 (c : CacheId) (x : Cache) : (s.setCache c x).asr17 = s.asr17 := by cases c <;> rfl
@[simp] theorem setCache_asr18 (c : CacheId) (x : Cache) : (s.setCache c x).asr18 = s.asr18 := by cases c <;> rfl
@[simp] theorem setCache_wp (c : CacheId) (x : Cache) : (s.setCache c x).wp = s.wp := by cases c <;> rfl
@[simp] theorem setCache_fsr (c : CacheId) (x : Cache) : (s.setCache c x).fsr = s.fsr := by cases c <;> rfl
@[simp] theorem setCache_annul (c : CacheId) (x : Cache) : (s.setCache c x).annul = s.annul := by cases c <;> rfl
@[simp] theorem setCache_errorMode (c : CacheId) (x : Cache) : (s.setCache c x).errorMode = s.errorMode := by cases c <;> rfl
@[simp] theorem setCache_debugMode (c : CacheId) (x : Cache) : (s.setCache c x).debugMode = s.debugMode := by cases c <;> rfl
@[simp] theorem setCache_powerDown (c : CacheId) (x : Cache) : (s.setCache c x).powerDown = s.powerDown := by cases c <;> rfl
@[simp] theorem setCache_mem (c : CacheId) (x : Cache) : (s.setCache c x).mem = s.mem := by cases c <;> rfl
@[simp] theorem setCache_memFlip (c : CacheId) (x : Cache) : (s.setCache c x).memFlip = s.memFlip := by cases c <;> rfl
@[simp] theorem setCache_dev (c : CacheId) (x : Cache) : (s.setCache c x).dev = s.dev := by cases c <;> rfl
@[simp] theorem setCache_pci (c : CacheId) (x : Cache) : (s.setCache c x).pci = s.pci := by cases c <;> rfl
@[simp] theorem setCache_dsu (c : CacheId) (x : Cache) : (s.setCache c x).dsu = s.dsu := by cases c <;> rfl
@[simp] theorem setCache_trapped (c : CacheId) (x : Cache) : (s.setCache c x).trapped = s.trapped := by cases c <;> rfl
@[simp] theorem setCache_freeCtr (c : CacheId) (x : Cache) : (s.setCache c x).freeCtr = s.freeCtr := by cases c <;> rfl
@[simp] theorem setCache_clk (c : CacheId) (x : Cache) : (s.setCache c x).clk = s.clk := by cases c <;> rfl
@[simp] theorem setCache_pins (c : CacheId) (x : Cache) : (s.setCache c x).pins = s.pins := by cases c <;> rfl
@[simp] theorem setCache_env (c : CacheId) (x : Cache) : (s.setCache c x).env = s.env := by cases c <;> rfl
@[simp] theorem setCache_busAnswers (c : CacheId) (x : Cache) : (s.setCache c x).busAnswers = s.busAnswers := by cases c <;> rfl
@[simp] theorem setCache_lines (c : CacheId) (x : Cache) : (s.setCache c x).lines = s.lines := by cases c <;> rfl
@[simp] theorem setCache_out (c : CacheId) (x : Cache) : (s.setCache c x).out = s.out := by cases c <;> rfl

/-! `setUart` -/

@[simp] theorem setUart_ireg (u : UartId) (x : Uart) : (s.setUart u x).ireg = s.ireg := by cases u <;> rfl
@[simp] theorem setUart_freg (u : UartId) (x : Uart) : (s.setUart u x).freg = s.freg := by cases u <;> rfl
@[simp] theorem setUart_pc (u : UartId) (x : Uart) : (s.setUart u x).pc = s.pc := by cases u <;> rfl
@[simp] theorem setUart_npc (u : UartId) (x : Uart) : (s.setUart u x).npc = s.npc := by cases u <;> rfl
@[simp] theorem setUart_psr (u : UartId) (x : Uart) : (s.setUart u x).psr = s.psr := by cases u <;> rfl
@[simp] theorem setUart_wim (u : UartId) (x : Uart) : (s.setUart u x).wim = s.wim := by cases u <;> rfl
@[simp] theorem setUart_tba (u : UartId) (x : Uart) : (s.setUart u x).tba = s.tba := by cases u <;> rfl
@[simp] theorem setUart_tt (u : UartId) (x : Uart) : (s.setUart u x).tt = s.tt := by cases u <;> rfl
@[simp] theorem setUart_y (u : UartId) (x : Uart) : (s.setUart u x).y = s.y := by cases u <;> rfl
@[simp] theorem setUart_asr16 (u : UartId) (x : Uart) : (s.setUart u x).asr16 = s.asr16 := by cases u <;> rfl
@[simp] theorem setUart_asr17 (u : UartId) (x : Uart) : (s.setUart u x).asr17 = s.asr17 := by cases u <;> rfl
@[simp] theorem setUart_asr18 (u : UartId) (x : Uart) : (s.setUart u x).asr18 = s.asr18 := by cases u <;> rfl
@[simp] theorem setUart_wp (u : UartId) (x : Uart) : (s.setUart u x).wp = s.wp := by cases u <;> rfl
@[simp] theorem setUart_fsr (u : UartId) (x : Uart) : (s.setUart u x).fsr = s.fsr := by cases u <;> rfl
@[simp] theorem setUart_annul (u : UartId) (x : Uart) : (s.setUart u x).annul = s.annul := by cases u <;> rfl
@[simp] theorem setUart_errorMode (u : UartId) (x : Uart) : (s.setUart u x).errorMode = s.errorMode := by cases u <;> rfl
@[simp] theorem setUart_debugMode (u : UartId) (x : Uart) : (s.setUart u x).debugMode = s.debugMode := by cases u <;> rfl
@[simp] theorem setUart_powerDown (u : UartId) (x : Uart) : (s.setUart u x).powerDown = s.powerDown := by cases u <;> rfl
@[simp] theorem setUart_mem (u : UartId) (x : Uart) : (s.setUart u x).mem = s.mem := by cases u <;> rfl
@[simp] theorem setUart_memFlip (u : UartId) (x : Uart) : (s.setUart u x).memFlip = s.memFlip := by cases u <;> rfl
@[simp] theorem setUart_icache (u : UartId) (x : Uart) : (s.setUart u x).icache = s.icache := by cases u <;> rfl
@[simp] theorem setUart_dcache (u : UartId) (x : Uart) : (s.setUart u x).dcache = s.dcache := by cases u <;> rfl
@[simp] theorem setUart_pci (u : UartId) (x : Uart) : (s.setUart u x).pci = s.pci := by cases u <;> rfl
@[simp] theorem setUart_dsu (u : UartId) (x : Uart) : (s.setUart u x).dsu = s.dsu := by cases u <;> rfl
@[simp] theorem setUart_trapped (u : UartId) (x : Uart) : (s.setUart u x).trapped = s.trapped := by cases u <;> rfl
@[simp] theorem setUart_freeCtr (u : UartId) (x : Uart) : (s.setUart u x).freeCtr = s.freeCtr := by cases u <;> rfl
@[simp] theorem setUart_clk (u : UartId) (x : Uart) : (s.setUart u x).clk = s.clk := by cases u <;> rfl
@[simp] theorem setUart_pins (u : UartId) (x : Uart) : (s.setUart u x).pins = s.pins := by cases u <;> rfl
@[simp] theorem setUart_env (u : UartId) (x : Uart) : (s.setUart u x).env = s.env := by cases u <;> rfl
@[simp] theorem setUart_busAnswers (u : UartId) (x : Uart) : (s.setUart u x).busAnswers = s.busAnswers := by cases u <;> rfl
@[simp] theorem setUart_lines (u : UartId) (x : Uart) : (s.setUart u x).lines = s.lines := by cases u <;> rfl
@[simp] theorem setUart_out (u : UartId) (x : Uart) : (s.setUart u x).out = s.out := by cases u <;> rfl

/-! `skipAnnulled` -/

@[simp] theorem skipAnnulled_ireg : (skipAnnulled s).ireg = s.ireg := by unfold skipAnnulled; split <;> rfl
@[simp] theorem skipAnnulled_freg : (skipAnnulled s).freg = s.freg := by unfold skipAnnulled; split <;> rfl
@[simp] theorem skipAnnulled_psr : (skipAnnulled s).psr = s.psr := by unfold skipAnnulled; split <;> rfl
@[simp] theorem skipAnnulled_wim : (skipAnnulled s).wim = s.wim := by unfold skipAnnulled; split <;> rfl
@[simp] theorem skipAnnulled_tba : (skipAnnulled s).tba = s.tba := by unfold skipAnnulled; split <;> rfl
@[simp] theorem skipAnnulled_tt : (skipAnnulled s).tt = s.tt := by unfold skipAnnulled; split <;> rfl
@[simp] theorem skipAnnulled_y : (skipAnnulled s).y = s.y := by unfold skipAnnulled; split <;> rfl
@[simp] theorem skipAnnulled_asr16 : (skipAnnulled s).asr16 = s.asr16 := by unfold skipAnnulled; split <;> rfl
@[simp] theorem skipAnnulled_asr17 : (skipAnnulled s).asr17 = s.asr17 := by unfold skipAnnulled; split <;> rfl
@[simp] theorem skipAnnulled_asr18 : (skipAnnulled s).asr18 = s.asr18 := by unfold skipAnnulled; split <;> rfl
@[simp] theorem skipAnnulled_wp : (skipAnnulled s).wp = s.wp := by unfold skipAnnulled; split <;> rfl
@[simp] theorem skipAnnulled_fsr : (skipAnnulled s).fsr = s.fsr := by unfold skipAnnulled; split <;> rfl
@[simp] theorem skipAnnulled_errorMode : (skipAnnulled s).errorMode = s.errorMode := by unfold skipAnnulled; split <;> rfl
@[simp] theorem skipAnnulled_debugMode : (skipAnnulled s).debugMode = s.debugMode := by unfold skipAnnulled; split <;> rfl
@[simp] theorem skipAnnulled_powerDown : (skipAnnulled s).powerDown = s.powerDown := by unfold skipAnnulled; split <;> rfl
@[simp] theorem skipAnnulled_mem : (skipAnnulled s).mem = s.mem := by unfold skipAnnulled; split <;> rfl
@[simp] theorem skipAnnulled_memFlip : (skipAnnulled s).memFlip = s.memFlip := by unfold skipAnnulled; split <;> rfl
@[simp] theorem skipAnnulled_icache : (skipAnnulled s).icache = s.icache := by unfold skipAnnulled; split <;> rfl
@[simp] theorem skipAnnulled_dcache : (skipAnnulled s).dcache = s.dcache := by unfold skipAnnulled; split <;> rfl
@[simp] theorem skipAnnulled_dev : (skipAnnulled s).dev = s.dev := by unfold skipAnnulled; split <;> rfl
@[simp] theorem skipAnnulled_pci : (skipAnnulled s).pci = s.pci := by unfold skipAnnulled; split <;> rfl
@[simp] theorem skipAnnulled_dsu : (skipAnnulled s).dsu = s.dsu := by unfold skipAnnulled; split <;> rfl
@[simp] theorem skipAnnulled_trapped : (skipAnnulled s).trapped = s.trapped := by unfold skipAnnulled; split <;> rfl
@[simp] theorem skipAnnulled_freeCtr : (skipAnnulled s).freeCtr = s.freeCtr := by unfold skipAnnulled; split <;> rfl
@[simp] theorem skipAnnulled_clk : (skipAnnulled s).clk = s.clk := by unfold skipAnnulled; split <;> rfl
@[simp] theorem skipAnnulled_pins : (skipAnnulled s).pins = s.pins := by unfold skipAnnulled; split <;> rfl
@[simp] theorem skipAnnulled_env : (skipAnnulled s).env = s.env := by unfold skipAnnulled; split <;> rfl
@[simp] theorem skipAnnulled_busAnswers : (skipAnnulled s).busAnswers = s.busAnswers := by unfold skipAnnulled; split <;> rfl
@[simp] theorem skipAnnulled_lines : (skipAnnulled s).lines = s.lines := by unfold skipAnnulled; split <;> rfl
@[simp] theorem skipAnnulled_out : (skipAnnulled s).out = s.out := by unfold skipAnnulled; split <;> rfl

end Sys2Proof.Machine
end

