-- ==== Sys2Proof/Laws/Ops.lean ====
section
/-! SUPPORT. What each shared operation over registers, checks, traps and sequencing does, said once. -/

namespace Sys2Proof.Machine

/-! ### The register file -/

/-- Two register numbers of one window name one word of the file only if they are equal (10_state R21). -/
theorem regIndex_inj {w : BitVec 3} {n m : RegNum} (h : regIndex w n = regIndex w m) : n = m := by
  have hn := n.isLt
  have hm := m.isLt
  have hw := w.isLt
  apply BitVec.eq_of_toNat_eq
  unfold regIndex at h
  split at h <;> split at h <;> simp only [Fin.mk.injEq] at h <;> omega

theorem r_of_ne (s : State) {n : RegNum} (h : n ≠ 0) : s.r n = (s.ireg.get (regIndex s.psr.cwp n)).data := if_neg h

theorem writeR_of_ne (s : State) {n : RegNum} (h : n ≠ 0) (v : Word) :
    writeR s n v =
      { s with ireg := s.ireg.set (regIndex s.psr.cwp n).val (writtenWord s v) (regIndex s.psr.cwp n).isLt } := if_neg h

theorem writeR_zero (s : State) (v : Word) : writeR s 0 v = s := rfl

theorem writtenWord_clean {s : State} (h : NoInjection s) (v : Word) : writtenWord s v = { data := v, flip := 0 } := if_neg h

theorem get_set_self {α : Type} {n : Nat} (x : Vector α n) (i : Fin n) (v : α) : (x.set i.val v i.isLt).get i = v := by
  simp [Vector.get_eq_getElem]

theorem get_set_ne {α : Type} {n : Nat} (x : Vector α n) (i j : Fin n) (v : α) (h : j ≠ i) :
    (x.set i.val v i.isLt).get j = x.get j := by
  simp only [Vector.get_eq_getElem]
  exact Vector.getElem_set_ne _ _ fun e => h (Fin.ext e.symm)

theorem r_zero (s : State) : s.r 0 = 0 := by simp [State.r]

theorem readR_zero (s : State) : readR s 0 = some (0, s) := by simp [readR]

/-- Reading a register that holds no error gives its data and changes nothing. -/
theorem readR_clean {s : State} (h : RegsClean s) (n : RegNum) : readR s n = some (s.r n, s) := by
  by_cases hn : n = 0
  · simp [readR, State.r, hn]
  · rw [r_of_ne s hn, readR, if_neg hn]
    simp [h (regIndex s.psr.cwp n)]

theorem readF_clean {s : State} (h : FregsClean s) (n : RegNum) : readF s n = some (s.f n, s) := by
  simp [readF, State.f, h (fregIndex n)]

theorem withR_clean {s : State} (h : RegsClean s) (n : RegNum) (k : State → Word → Result) : withR s n k = k s (s.r n) := by
  simp [withR, readR_clean h]

theorem withF_clean {s : State} (h : FregsClean s) (n : RegNum) (k : State → Word → Result) : withF s n k = k s (s.f n) := by
  simp [withF, readF_clean h]

theorem withOperand2_clean {s : State} (h : RegsClean s) (op2 : RegImm) (k : State → Word → Result) :
    withOperand2 s op2 k = k s (s.operand2 op2) := by
  cases op2 <;> simp [withOperand2, State.operand2, withR_clean h]

theorem withOperands_clean {s : State} (h : RegsClean s) (rs1 : RegNum) (op2 : RegImm) (k : State → Word → Word → Result) :
    withOperands s rs1 op2 k = k s (s.r rs1) (s.operand2 op2) := by
  simp [withOperands, withR_clean h, withOperand2_clean h]

theorem withAddress_clean {s : State} (h : RegsClean s) (rs1 : RegNum) (op2 : RegImm) (k : State → Word → Result) :
    withAddress s rs1 op2 k = k s (ea s rs1 op2) := by
  simp [withAddress, withOperands_clean h, ea]

theorem readAddress_clean {s : State} (h : RegsClean s) (rs1 : RegNum) (op2 : RegImm) :
    readAddress s rs1 op2 = (some (ea s rs1 op2), s) := by
  cases op2 <;> simp [readAddress, readR_clean h, ea, State.operand2]

/-- With good registers a memory access has its effective address, after the test of the data watchpoints (40 R350, R351). -/
theorem withAccess_clean {s : State} (h : RegsClean s) (rs1 : RegNum) (op2 : RegImm) (l w : Bool) (k : State → Word → Result) :
    withAccess s rs1 op2 l w k = withWatch s l w (ea s rs1 op2) (k s (ea s rs1 op2)) := by
  simp [withAccess, readAddress_clean h]

/-- Writing `r[rd]` writes that one word of the file (10_state R22). -/
theorem writeR_spec {s : State} (h : NoInjection s) (rd : RegNum) (v : Word) : WritesReg s (writeR s rd v) rd v := by
  by_cases hrd : rd = 0
  · subst hrd
    exact ⟨fun h => absurd rfl h, fun n _ => rfl, r_zero s, fun i _ => rfl⟩
  · rw [writeR_of_ne s hrd, writtenWord_clean h]
    refine ⟨fun _ => ?_, fun n hn => ?_, r_zero _, fun i hi => ?_⟩
    · rw [r_of_ne _ hrd, get_set_self]
      exact ⟨rfl, rfl⟩
    · by_cases hn0 : n = 0
      · subst hn0; rfl
      · rw [r_of_ne _ hn0, r_of_ne _ hn0, get_set_ne _ _ _ _ fun e => hn (regIndex_inj e)]
    · exact get_set_ne _ _ _ _ (hi.resolve_left hrd)

theorem r_writeR_self {s : State} (h : NoInjection s) {rd : RegNum} (hrd : rd ≠ 0) (v : Word) : (writeR s rd v).r rd = v :=
  ((writeR_spec h rd v).1 hrd).1

theorem r_writeR_ne {s : State} (h : NoInjection s) {rd n : RegNum} (hn : n ≠ rd) (v : Word) : (writeR s rd v).r n = s.r n :=
  (writeR_spec h rd v).2.1 n hn

theorem writeR_noInjection {s : State} (h : NoInjection s) (rd : RegNum) (v : Word) : NoInjection (writeR s rd v) := by
  simpa [NoInjection] using h

theorem writeR_regsClean {s : State} (h : NoInjection s) (hc : RegsClean s) (rd : RegNum) (v : Word) : RegsClean (writeR s rd v) := by
  intro i
  by_cases hrd : rd = 0
  · subst hrd; exact hc i
  · rw [writeR_of_ne s hrd, writtenWord_clean h]
    by_cases e : i = regIndex s.psr.cwp rd
    · subst e; rw [get_set_self]
    · rw [get_set_ne _ _ _ _ e]; exact hc i

/-- `r` looks at the register file and the current window only. -/
theorem r_congr {s t : State} (hi : t.ireg = s.ireg) (hc : t.psr.cwp = s.psr.cwp) (n : RegNum) : t.r n = s.r n := by
  simp [State.r, hi, hc]

theorem f_congr {s t : State} (h : t.freg = s.freg) (n : RegNum) : t.f n = s.f n := by simp [State.f, h]

theorem byteAt_congr {s t : State} (h : t.mem = s.mem) (a : Nat) : t.byteAt a = s.byteAt a := by simp [State.byteAt, h]

theorem wordAt_congr {s t : State} (h : t.mem = s.mem) (a : Nat) : t.wordAt a = s.wordAt a := by
  simp [State.wordAt, byteAt_congr h]

theorem f_writeF (s : State) (n m : RegNum) (v : Word) : (writeF s n v).f m = if m = n then v else s.f m := by
  by_cases h : m = n
  · subst h; rw [if_pos rfl, State.f, writeF, get_set_self]
  · have e : fregIndex m ≠ fregIndex n := fun e => h (BitVec.eq_of_toNat_eq (congrArg Fin.val e))
    rw [if_neg h, State.f, writeF, get_set_ne _ _ _ _ e]; rfl

/-! ### Completing -/

/-- An instruction that ends by writing `r[rd]` and advancing completes so. -/
theorem completes_writeR {u : State} (h : NoInjection u) (rd : RegNum) (v : Word) :
    Completes (.next (advance (writeR u rd v))) u rd v := by
  obtain ⟨h1, h2, h3, h4⟩ := writeR_spec h rd v
  refine ⟨_, rfl, ⟨fun hrd => ?_, fun n hn => ?_, ?_, fun i hi => ?_⟩, ?_, fun a => ?_⟩
  · exact h1 hrd
  · exact h2 n hn
  · exact h3
  · exact h4 i hi
  · unfold writeR; split <;> rfl
  · exact byteAt_congr (by simp) a

/-- One that writes no register: `rd = 0`. -/
theorem completes_advance (u : State) : Completes (.next (advance u)) u 0 0 := by
  refine ⟨_, rfl, ⟨fun h => absurd rfl h, fun n _ => rfl, r_zero _, fun i _ => rfl⟩, rfl, fun a => rfl⟩

/-! ### Checks and traps -/

theorem checked_pass {s : State} (h : watchFetch s s.pc = false) (k : Result) :
    ∀ {checks : List (Bool × BitVec 8)}, (∀ p ∈ checks, p.1 = false) → checked s checks k = k
  | [], _ => by simp [checked, h]
  | (c, tt) :: rest, hc => by
    have : c = false := hc (c, tt) (by simp)
    simp [checked, this, checked_pass h k (checks := rest) fun p hp => hc p (by simp [hp])]

theorem checked_nil {s : State} (h : watchFetch s s.pc = false) (k : Result) : checked s [] k = k := by simp [checked, h]

theorem checked_trap (s : State) (tt : BitVec 8) (rest : List (Bool × BitVec 8)) (k : Result) :
    checked s ((true, tt) :: rest) k = raise s tt := by simp [checked]

theorem checked_skip (s : State) (tt : BitVec 8) (rest : List (Bool × BitVec 8)) (k : Result) :
    checked s ((false, tt) :: rest) k = checked s rest k := by simp [checked]

/-- A watchpoint on the fetch traps before the operation (60 R632). -/
theorem checked_watch {s : State} (h : watchFetch s s.pc = true) (k : Result) : checked s [] k = raise s ttWatchpoint := by
  simp [checked, h]

/-- A trap that can be taken is entered. -/
theorem raise_taken {s : State} {tt : BitVec 8} (h : CanTrap s tt) : raise s tt = .next (enterTrap s tt) := by
  simp [raise, trapState, h.1, h.2]

theorem trapState_taken {s : State} {tt : BitVec 8} (h : CanTrap s tt) (eff : State → State) :
    trapState s eff tt = enterTrap (eff s) tt := by
  simp [trapState, h.1, h.2]

/-- A trap with ET = 0 is error mode: pc, npc, PSR and TBR keep their values (60 R646). -/
theorem raise_errorMode {s : State} {tt : BitVec 8} (he : s.psr.et = false) (hd : debugOnTrap s tt = false) :
    raise s tt = .next { s with trapped := true, errorMode := true } := by
  simp [raise, trapState, he, hd]

/-- What trap entry does (60 R640). -/
theorem enterTrap_spec {s : State} (h : NoInjection s) (tt : BitVec 8) : EntersTrap s (enterTrap s tt) tt := by
  let s1 : State := { s with psr := s.psr.trapEntry, trapped := true }
  have h1 : NoInjection s1 := h
  have h2 : NoInjection (writeR s1 17 s.pc) := writeR_noInjection h1 _ _
  have e (x : State) (t : BitVec 8) (a b : Word) (n : RegNum) : State.r { x with tt := t, pc := a, npc := b } n = x.r n := rfl
  refine ⟨?_, rfl, rfl, rfl, ?_, ?_, ?_, ?_, fun i hi hj => ?_, ?_, fun a => ?_⟩
  · simp [enterTrap, Psr.trapEntry]
  · rw [enterTrap, e, r_writeR_ne h2 (by decide), r_writeR_self h1 (by decide)]
  · rw [enterTrap, e, r_writeR_self h2 (by decide)]
  · have p1 := ((writeR_spec h1 17 s.pc).1 (by decide)).2
    have p2 := (writeR_spec h2 18 s.npc).2.2.2 (regIndex (s.psr.cwp - 1) 17)
      (.inr (by rw [writeR_psr]; exact fun e => absurd (regIndex_inj e) (by decide)))
    exact (congrArg RegWord.flip p2).trans p1
  · have p := ((writeR_spec h2 18 s.npc).1 (by decide)).2
    rw [writeR_psr] at p
    exact p
  · have p1 := (writeR_spec h1 17 s.pc).2.2.2 i (.inr hi)
    have p2 := (writeR_spec h2 18 s.npc).2.2.2 i (.inr (by rw [writeR_psr]; exact hj))
    exact p2.trans p1
  · simp only [enterTrap]
    unfold writeR
    repeat' split
    all_goals rfl
  · exact byteAt_congr (by simp [enterTrap]) a

/-- So an instruction that raises a trap that can be taken traps. -/
theorem traps_raise {s : State} {tt : BitVec 8} (hn : NoInjection s) (h : CanTrap s tt) : Traps (raise s tt) s tt :=
  ⟨_, raise_taken h, enterTrap_spec hn tt⟩

end Sys2Proof.Machine
end

