-- ==== Sys2Proof/Laws/Bus.lean ====
section
/-! SUPPORT. What a bus transfer may touch: no access changes a register of the IU, reads change no byte of memory, writes change the
bytes written only. -/

namespace Sys2Proof.Machine

/-- From `s` to `t` neither a register of the IU or FPU nor memory changes. -/
def Quiet (s t : State) : Prop := t.cpu = s.cpu ∧ t.mem = s.mem ∧ t.memFlip = s.memFlip

theorem Quiet.refl (s : State) : Quiet s s := ⟨rfl, rfl, rfl⟩

theorem Quiet.trans {s t u : State} (h : Quiet s t) (k : Quiet t u) : Quiet s u :=
  ⟨k.1.trans h.1, k.2.1.trans h.2.1, k.2.2.trans h.2.2⟩

/-! ### Devices, trace and caches -/

theorem free_quiet (s : State) : Quiet s s.free.2 := ⟨rfl, rfl, rfl⟩

theorem freezeTrace_quiet (s : State) : Quiet s (freezeTrace s) := by
  unfold freezeTrace; split <;> exact ⟨rfl, rfl, rfl⟩

theorem dsuHit_quiet (s : State) : Quiet s (dsuHit s) := by
  unfold dsuHit
  simp only
  split
  · exact Quiet.trans (freezeTrace_quiet s) ⟨rfl, rfl, rfl⟩
  · exact ⟨rfl, rfl, rfl⟩

theorem storeLine_quiet (s : State) (b : Bool) (i : BitVec 9) (l : BitVec 128) : Quiet s (storeLine s b i l) := by
  unfold storeLine
  simp only
  split
  · split
    · refine Quiet.trans (t := State.setDcnt _ 0) ?_ (freezeTrace_quiet _)
      exact ⟨rfl, rfl, rfl⟩
    · exact ⟨rfl, rfl, rfl⟩
  · exact ⟨rfl, rfl, rfl⟩

theorem traceInstrLine_quiet (s : State) (l : BitVec 128) : Quiet s (traceInstrLine s l) := by
  unfold traceInstrLine
  simp only
  split
  · refine Quiet.trans ?_ (storeLine_quiet _ _ _ _)
    exact ⟨rfl, rfl, rfl⟩
  · exact Quiet.refl s

theorem traceField_quiet (s : State) (v : Option Word) : Quiet s (traceField s v).2 := by
  cases v
  · exact ⟨rfl, rfl, rfl⟩
  · exact Quiet.refl s

theorem traceLanes_quiet (s : State) (a : Word) (n : Nat) (v : Option Word) : Quiet s (traceLanes s a n v).2 := by
  unfold traceLanes
  repeat' split
  all_goals exact Quiet.refl s

theorem traceBusLine_quiet (s : State) (m : Master) (w h : Bool) (a : Word) (n : Nat) (v : Option Word) :
    Quiet s (traceBusLine s m w h a n v) := by
  unfold traceBusLine
  simp only
  split
  · refine Quiet.trans (Quiet.trans (free_quiet s) (traceLanes_quiet _ a n v)) (Quiet.trans ?_ (storeLine_quiet _ _ _ _))
    exact ⟨rfl, rfl, rfl⟩
  · exact Quiet.refl s

theorem dsuSeesBus_quiet (s : State) (m : Master) (w : Bool) (a : Word) (n : Nat) (v : Option Word) :
    Quiet s (dsuSeesBus s m w a n v) := by
  unfold dsuSeesBus
  simp only
  split
  · exact Quiet.trans (traceBusLine_quiet _ _ _ _ _ _ _) (dsuHit_quiet _)
  · exact traceBusLine_quiet _ _ _ _ _ _ _

theorem latchBusError_quiet (s : State) (m : Master) (r : Bool) (a : Word) (n : Nat) : Quiet s (latchBusError s m r a n) := by
  unfold latchBusError; split <;> exact ⟨rfl, rfl, rfl⟩

theorem pend_quiet (s : State) (n : Nat) : Quiet s (s.pend n) := ⟨rfl, rfl, rfl⟩

theorem setUart_quiet (s : State) (u : UartId) (x : Uart) : Quiet s (s.setUart u x) := by cases u <;> exact ⟨rfl, rfl, rfl⟩

theorem setCache_quiet (s : State) (c : CacheId) (x : Cache) : Quiet s (s.setCache c x) := by cases c <;> exact ⟨rfl, rfl, rfl⟩

theorem uartStart_quiet (s : State) (u : UartId) : Quiet s (uartStart s u) := by
  unfold uartStart
  simp only
  split
  · split
    · exact Quiet.trans (setUart_quiet _ _ _) (pend_quiet _ _)
    · exact setUart_quiet _ _ _
  · exact Quiet.refl s

theorem uartTakeByte_quiet (s : State) (u : UartId) : Quiet s (uartTakeByte s u) := by
  unfold uartTakeByte
  simp only
  split
  · split
    · exact Quiet.trans (setUart_quiet _ _ _) (pend_quiet _ _)
    · exact setUart_quiet _ _ _
  · exact setUart_quiet _ _ _

theorem uartRead_quiet (s : State) (u : UartId) (k : Nat) : Quiet s (uartRead s u k).2 := by
  unfold uartRead uartReadData
  split
  · exact Quiet.trans (uartTakeByte_quiet s u) (uartStart_quiet _ u)
  all_goals exact Quiet.refl s

theorem uartWrite_quiet (s : State) (u : UartId) (k : Nat) (v : Word) : Quiet s (uartWrite s u k v) := by
  unfold uartWrite
  simp only
  split
  · exact Quiet.trans (setUart_quiet _ _ _) (uartStart_quiet _ _)
  · exact setUart_quiet _ _ _
  · exact Quiet.trans (setUart_quiet _ _ _) (uartStart_quiet _ _)
  · exact setUart_quiet _ _ _

theorem flushCache_quiet (s : State) (c : CacheId) : Quiet s (flushCache s c) := setCache_quiet _ _ _

theorem diagWrite_quiet (s : State) (c : CacheId) (t : Bool) (a v : Word) : Quiet s (diagWrite s c t a v) := setCache_quiet _ _ _

theorem ccrWrite_quiet (s : State) (v : Word) : Quiet s (ccrWrite s v) := by
  unfold ccrWrite
  have h0 (t : State) (b : Bool) (c : CacheId) : Quiet t (if b then flushCache t c else t) := by
    split
    · exact flushCache_quiet _ _
    · exact Quiet.refl t
  refine Quiet.trans (Quiet.trans ?_ (h0 _ (bit v 21) .icache)) (h0 _ (bit v 22) .dcache)
  exact ⟨rfl, rfl, rfl⟩

theorem iodatRead_quiet (s : State) : Quiet s (iodatRead s).2 := by
  unfold iodatRead; simp only; split <;> exact ⟨rfl, rfl, rfl⟩

theorem ccr1Read_quiet (s : State) : Quiet s (ccr1Read s).2 := by
  unfold ccr1Read; split <;> exact ⟨rfl, rfl, rfl⟩

theorem ccr3Read_quiet (s : State) : Quiet s (ccr3Read s).2 := by
  unfold ccr3Read
  simp only
  generalize ((((if s.dev.ccr3 &&& 0xFC000000#32 = 0xFC000000#32 then (0xFC000000#32 : Word) else 0) ||| _) ||| _) ||| _) = m
  split <;> exact ⟨rfl, rfl, rfl⟩

theorem readReg_quiet (s : State) (off : Nat) : Quiet s (readReg s off).2 := by
  unfold readReg
  simp only
  split
  · exact uartRead_quiet _ _ _
  · split
    · exact Quiet.refl s
    · split
      · exact Quiet.refl s
      · split
        all_goals first
          | exact Quiet.refl s
          | exact iodatRead_quiet s
          | exact ccr1Read_quiet s
          | exact ccr3Read_quiet s

theorem iodirWrite_quiet (s : State) (v : Word) : Quiet s (iodirWrite s v) := by
  unfold iodirWrite; simp only; split <;> exact ⟨rfl, rfl, rfl⟩

theorem ccr1Write_quiet (s : State) (v : Word) : Quiet s (ccr1Write s v) := by
  unfold ccr1Write; simp only; split <;> exact ⟨rfl, rfl, rfl⟩

theorem writeReg_quiet (s : State) (off : Nat) (v : Word) : Quiet s (writeReg s off v) := by
  have dev (d : Dev) : Quiet s { s with dev := d } := ⟨rfl, rfl, rfl⟩
  unfold writeReg
  split
  · exact uartWrite_quiet _ _ _ _
  · split
    · exact dev _
    · split
      · exact dev _
      · split
        · exact ccrWrite_quiet _ _
        · exact ⟨rfl, rfl, rfl⟩
        · exact dev _
        · exact iodirWrite_quiet _ _
        · split
          · exact ⟨rfl, rfl, rfl⟩
          · exact Quiet.refl s
        · exact ccr1Write_quiet _ _
        · exact dev _
        · exact dev _

theorem dmaCtrlRead_quiet (s : State) (ch : DmaChannel) : Quiet s (dmaCtrlRead s ch).2 := by
  unfold dmaCtrlRead; simp only; split <;> exact ⟨rfl, rfl, rfl⟩

theorem readPci_quiet (s : State) (off : Nat) : Quiet s (readPci s off).2 := by
  unfold readPci
  simp only
  split
  all_goals first
    | exact dmaCtrlRead_quiet _ _
    | exact ⟨rfl, rfl, rfl⟩

theorem writePci_quiet {s t : State} {off : Nat} {v : Word} (h : writePci s off v = .ok t) : Quiet s t := by
  have d (ch : DmaChannel) (h : dmaCtrlWrite s ch v = .ok t) : Quiet s t := by
    unfold dmaCtrlWrite at h
    simp only at h
    repeat' split at h
    all_goals first
      | cases h; exact ⟨rfl, rfl, rfl⟩
      | cases h
  unfold writePci at h
  split at h
  · exact d _ h
  · exact d _ h
  · cases h; exact ⟨rfl, rfl, rfl⟩

theorem takeAnswer_quiet (s : State) : Quiet s s.takeAnswer.2 := by
  unfold State.takeAnswer; split <;> exact ⟨rfl, rfl, rfl⟩

theorem pciWindowFail_quiet (s : State) : Quiet s (pciWindowFail s).2 := by
  unfold pciWindowFail; simp only; split <;> exact ⟨rfl, rfl, rfl⟩

theorem holdPci_quiet (s : State) (a : Word) (ws : List Word) : Quiet s (holdPci s a ws) := ⟨rfl, rfl, rfl⟩

theorem pciTargetRead_quiet (s : State) (io : Bool) (a : Word) (n : Nat) : Quiet s (pciTargetRead s io a n).2 := by
  unfold pciTargetRead
  simp only
  generalize hs1 : ({ s with out := Output.pciRead (if io then 2 else 6) a (BitVec.ofNat 4 n) :: s.out } : State) = s1
  have h1 : Quiet s s1 := by subst hs1; exact ⟨rfl, rfl, rfl⟩
  have h2 := takeAnswer_quiet s1
  generalize hp : s1.takeAnswer = p at h2 ⊢
  obtain ⟨o, s2⟩ := p
  have h3 := Quiet.trans h1 h2
  rcases o with _ | ⟨_ | w, ws⟩
  · exact Quiet.trans h3 (free_quiet _)
  · exact Quiet.trans h3 (pciWindowFail_quiet s2)
  · simp only
    split
    · split
      · exact Quiet.trans h3 (holdPci_quiet _ _ _)
      · exact h3
    · exact Quiet.trans h3 (free_quiet _)

theorem pciWindowRead_quiet (s : State) (io : Bool) (a : Word) (n : Nat) : Quiet s (pciWindowRead s io a n).2 := by
  have pci (p : Pci) : Quiet s { s with pci := p } := ⟨rfl, rfl, rfl⟩
  unfold pciWindowRead
  split
  · exact pciWindowFail_quiet s
  · split
    · split
      · exact pci _
      · exact Quiet.trans (pci _) (pciTargetRead_quiet _ _ _ _)
    · exact pciTargetRead_quiet _ _ _ _

/-- The discard of the AHB-PCI window (61 R742): nothing, or the held words go and CPU_ISTATUS bit 14 is set. -/
theorem discardPci_cases (p : Pci) (now : Nat) :
    (p.heldPci.expired now p.ahbpciTimer = false ∧ discardPci p now = p) ∨
      (p.heldPci.expired now p.ahbpciTimer = true ∧
        discardPci p now = { p with heldPci := Held.empty, istatus := p.istatus ||| 0x4000#32 }) := by
  unfold discardPci
  split
  · exact .inr ⟨‹_›, rfl⟩
  · exact .inl ⟨Bool.eq_false_of_not_eq_true ‹_›, rfl⟩

/-- The discard of the PCI-AHB window (61 R744): nothing, or the held words go and CPU_ISTATUS bit 6 is set. -/
theorem discardAhb_cases (p : Pci) (now : Nat) :
    (p.heldAhb.expired now p.pciahbTimer = false ∧ discardAhb p now = p) ∨
      (p.heldAhb.expired now p.pciahbTimer = true ∧
        discardAhb p now = { p with heldAhb := Held.empty, istatus := p.istatus ||| 0x40#32 }) := by
  unfold discardAhb
  split
  · exact .inr ⟨‹_›, rfl⟩
  · exact .inl ⟨Bool.eq_false_of_not_eq_true ‹_›, rfl⟩

theorem pciWindowWrite_quiet (s : State) (io : Bool) (a : Word) (n : Nat) (v : Word) : Quiet s (pciWindowWrite s io a n v) := by
  unfold pciWindowWrite; split <;> exact ⟨rfl, rfl, rfl⟩

theorem ioRead_quiet (s : State) (a : Word) (n : Nat) : Quiet s (ioRead s a n).2 := by
  unfold ioRead
  simp only
  generalize hs1 : ({ s with out := Output.ioRead a (BitVec.ofNat 4 n) :: s.out } : State) = s1
  have h1 : Quiet s s1 := by subst hs1; exact ⟨rfl, rfl, rfl⟩
  have h2 := takeAnswer_quiet s1
  generalize hp : s1.takeAnswer = p at h2 ⊢
  obtain ⟨o, s2⟩ := p
  have h3 := Quiet.trans h1 h2
  rcases o with _ | ⟨_ | w, ws⟩
  · exact Quiet.trans h3 (free_quiet _)
  · exact Quiet.trans h3 (free_quiet _)
  · exact h3

theorem readDsu_quiet (s : State) (off : Nat) : Quiet s (readDsu s off).2 := by
  unfold readDsu
  repeat' split
  all_goals exact ⟨rfl, rfl, rfl⟩

/-- Outside debug mode a write to the DSU changes no register of the IU (61 R764). -/
theorem writeDsu_quiet (s : State) (off : Nat) (v : Word) (h : s.debugMode = false) : Quiet s (writeDsu s off v) := by
  have dsu (d : Dsu) : Quiet s { s with dsu := d } := ⟨rfl, rfl, rfl⟩
  unfold writeDsu
  split
  · unfold dsuCtrlWrite
    simp only [h, Bool.false_eq_true, if_false]
    split <;> exact ⟨by simp [State.cpu, h], rfl, rfl⟩
  · exact dsu _
  · exact dsu _
  · exact dsu _
  · exact dsu _
  · exact dsu _
  · exact dsu _
  · split
    · split
      · exact dsu _
      · exact Quiet.refl s
    · rw [h]
      exact Quiet.refl s

theorem snoop_quiet (s : State) (a : Word) : Quiet s (snoop s a) := by
  unfold snoop
  split
  · split <;> exact ⟨rfl, rfl, rfl⟩
  · exact Quiet.refl s

theorem freezeCaches_quiet (s : State) : Quiet s (freezeCaches s) := ⟨rfl, rfl, rfl⟩

theorem fillWay_quiet (s : State) (c : CacheId) (w : Nat) (a : Word) (l : List (Word × Word)) : Quiet s (fillWay s c w a l) :=
  setCache_quiet _ _ _

theorem mendWay_quiet (s : State) (c : CacheId) (w : Nat) (a v : Word) : Quiet s (mendWay s c w a v) := setCache_quiet _ _ _

theorem allocate_quiet (s : State) (c : CacheId) (a : Word) (l : List (Word × Word)) : Quiet s (allocate s c a l) := by
  unfold allocate; simp only; split <;> exact fillWay_quiet _ _ _ _ _

theorem updateCached_quiet (s : State) (c : CacheId) (a : Word) (n o : Nat) (v : Word) : Quiet s (updateCached s c a n o v) := by
  unfold updateCached
  simp only
  split
  · exact Quiet.refl s
  · exact setCache_quiet _ _ _

theorem countParity_quiet (s : State) (lo w : Nat) : Quiet s (countParity s lo w) := by
  unfold countParity; simp only; split <;> exact ⟨rfl, rfl, rfl⟩

/-- A lookup changes nothing but caches and counters. -/
theorem cacheLookup_quiet (s : State) (c : CacheId) (a : Word) :
    match cacheLookup s c a with
    | .hit _ t => Quiet s t
    | .refill _ t => Quiet s t
    | .miss => True := by
  have ht : Quiet s (countTagError s c) := by cases c <;> exact countParity_quiet _ _ _
  have hd : Quiet s (countDataError s c) := by cases c <;> exact countParity_quiet _ _ _
  unfold cacheLookup
  simp only
  cases hitWay c (s.getCache c) a with
  | none => trivial
  | some w =>
    simp only
    by_cases h1 : parityBad ((s.getCache c).tag (tagKey c w (cacheSet c a))) = true
    · simp only [h1, if_true]; exact ht
    · simp only [h1]
      by_cases h2 : parityBad ((s.getCache c).word (dataKey w a)) = true
      · simp only [h2, if_true]; exact hd
      · simp only [h2]; exact setCache_quiet _ _ _

end Sys2Proof.Machine
end

