-- ==== Sys2Proof/Laws/Access.lean ====
section
/-! SUPPORT. One bus transfer and one access of the IU through the caches: what each may touch, and what it gives on plain memory. -/

namespace Sys2Proof.Machine

/-- Every state a bus answer carries has property `P`. -/
def Bus.All {α : Type} (P : State → Prop) : Bus α → Prop
  | .ok _ t => P t
  | .err t => P t
  | .refuse _ => True

theorem Bus.All.mono {α : Type} {P Q : State → Prop} {b : Bus α} (h : b.All P) (k : ∀ t, P t → Q t) : b.All Q := by
  cases b with
  | ok v t => exact k t h
  | err t => exact k t h
  | refuse r => trivial

/-- From `s` to `t` a read: no register changes, memory keeps its form, and no byte changes where no word holds a flipped bit. -/
def Reads (s t : State) : Prop :=
  t.cpu = s.cpu ∧ (Memory.wf s = true → Memory.wf t = true) ∧ (s.memFlip = [] → t.mem = s.mem ∧ t.memFlip = [])

theorem Quiet.reads {s t : State} (h : Quiet s t) : Reads s t := by
  refine ⟨h.1, fun w => ?_, fun f => ⟨h.2.1, h.2.2.trans f⟩⟩
  simpa [Memory.wf, h.2.1, h.2.2] using w

theorem Reads.refl (s : State) : Reads s s := (Quiet.refl s).reads

theorem Reads.trans {s t u : State} (h : Reads s t) (k : Reads t u) : Reads s u :=
  ⟨k.1.trans h.1, fun w => k.2.1 (h.2.1 w), fun f =>
    ⟨(k.2.2 (h.2.2 f).2).1.trans (h.2.2 f).1, (k.2.2 (h.2.2 f).2).2⟩⟩

theorem flipAt_nil {s : State} (h : s.memFlip = []) (a : Nat) : s.flipAt a = 0 := by simp [State.flipAt, h, sparseGet]

/-! ### Reads -/

theorem readRam_reads (s : State) (b : RamBank) (a : Word) : Reads s (readRam s b a).2 := by
  unfold readRam
  simp only
  have h1 : Quiet s (if tcbLatches s.dev b a.toNat then s.latchTcb (checkBits Config.enc (s.wordAt a.toNat) (s.flipAt a.toNat)) else s) := by
    split <;> exact ⟨rfl, rfl, rfl⟩
  generalize (if tcbLatches s.dev b a.toNat then s.latchTcb (checkBits Config.enc (s.wordAt a.toNat) (s.flipAt a.toNat)) else s) = s1
    at h1 ⊢
  split
  · exact h1.reads
  · next hf =>
    split
    · exact h1.reads
    · split
      · exact h1.reads
      · refine ⟨h1.1, fun w => putWord_wf _ _ _ _ (h1.reads.2.1 w), fun f => ?_⟩
        exact absurd (by simp [flipAt_nil f]) hf

theorem readProm_reads (s : State) (f : Bool) (a : Word) : Reads s (readProm s f a).2 := by
  unfold readProm
  simp only
  have h1 (c : Bool) (x : BitVec 7) : Quiet s (if c then s.latchTcb x else s) := by
    split <;> exact ⟨rfl, rfl, rfl⟩
  split
  · split <;> exact (h1 _ _).reads
  · split <;> exact (h1 _ _).reads

theorem busOf_all (P : State → Prop) (p : Option Word × State) (h : P p.2) : (busOf p).All P := by
  obtain ⟨_ | _, s⟩ := p <;> exact h

theorem areaRead_reads (s : State) (f : Bool) (a : Word) (sz : Size) : (areaRead s f a sz).All (Reads s) := by
  unfold areaRead
  simp only
  cases areaOf a with
  | prom =>
    simp only
    split
    · exact Reads.refl s
    · have h := readProm_reads s f (wordBase a)
      generalize readProm s f (wordBase a) = p at h ⊢
      obtain ⟨_ | _, t⟩ := p <;> exact h
  | io =>
    simp only
    split
    · exact Reads.refl s
    · exact (ioRead_quiet _ _ _).reads
  | ram =>
    simp only
    cases ramBank s.dev a with
    | none => exact Reads.refl s
    | some b =>
      simp only
      split
      · exact Reads.refl s
      · have h := readRam_reads s b (wordBase a)
        generalize readRam s b (wordBase a) = p at h ⊢
        obtain ⟨_ | _, t⟩ := p <;> exact h
  | regs =>
    simp only
    split
    · exact (readReg_quiet _ _).reads
    · trivial
  | dsu =>
    simp only
    split
    · exact (readDsu_quiet _ _).reads
    · exact (free_quiet s).reads
  | pciRegs =>
    simp only
    split
    · exact (readPci_quiet _ _).reads
    · trivial
  | pciIo => exact busOf_all _ _ (pciWindowRead_quiet _ _ _ _).reads
  | pciMem => exact busOf_all _ _ (pciWindowRead_quiet _ _ _ _).reads
  | unassigned => exact Reads.refl s

/-- What a read transfer may touch. -/
theorem busRead_reads (s : State) (m : Master) (f : Bool) (a : Word) (sz : Size) : (busRead s m f a sz).All (Reads s) := by
  unfold busRead
  have h := areaRead_reads s f a sz
  generalize areaRead s f a sz = b at h ⊢
  cases b with
  | ok v t => exact Reads.trans h (dsuSeesBus_quiet _ _ _ _ _ _).reads
  | err t => exact Reads.trans h (Quiet.trans (latchBusError_quiet _ _ _ _ _) (dsuSeesBus_quiet _ _ _ _ _ _)).reads
  | refuse r => trivial

theorem fillFetch_reads (s : State) (way : Option Nat) (a w : Word) : Reads s (fillFetch s way a w) := by
  unfold fillFetch
  have h := busRead_reads s .iu true (a ^^^ 4) .word
  generalize busRead s .iu true (a ^^^ 4) .word = b at h ⊢
  cases b <;> cases way
  · exact Reads.trans h (allocate_quiet _ _ _ _).reads
  · exact Reads.trans h (fillWay_quiet _ _ _ _ _).reads
  · exact Reads.refl s
  · exact (mendWay_quiet _ _ _ _ _).reads
  · exact Reads.refl s
  · exact (mendWay_quiet _ _ _ _ _).reads

/-- What a fetch may touch. -/
theorem fetchWord_reads (s : State) (a : Word) : (fetchWord s a).All (Reads s) := by
  unfold fetchWord
  split
  · have hl := cacheLookup_quiet s .icache a
    generalize cacheLookup s .icache a = l at hl ⊢
    cases l with
    | hit v t => exact hl.reads
    | refill k t =>
      have h := busRead_reads t .iu true a .word
      simp only at hl ⊢
      generalize busRead t .iu true a .word = b at h ⊢
      cases b with
      | ok v u => exact Reads.trans hl.reads (Reads.trans h (fillFetch_reads _ _ _ _))
      | err u => exact Reads.trans hl.reads h
      | refuse r => trivial
    | miss =>
      have h := busRead_reads s .iu true a .word
      simp only
      generalize busRead s .iu true a .word = b at h ⊢
      cases b with
      | ok v u =>
        simp only
        split
        · exact Reads.trans h (fillFetch_reads _ _ _ _)
        · exact h
      | err u => exact h
      | refuse r => trivial
  · exact busRead_reads _ _ _ _ _

theorem cachedReadWord_reads (s : State) (use : CacheUse) (a : Word) : (cachedReadWord s use a).All (Reads s) := by
  unfold cachedReadWord
  simp only
  have h := busRead_reads s .iu false (wordBase a) .word
  have force (u : CacheUse) : (match busRead s .iu false (wordBase a) .word with
      | .ok w s2 =>
        match hitWay .dcache s2.dcache (wordBase a) with
        | some _ => Bus.ok w (updateCached s2 .dcache (wordBase a) 4 0 w)
        | none =>
          .ok w (if (decide (u = CacheUse.forceAllocate) && cacheEnabled s.dev .dcache) = true then
            allocate s2 .dcache (wordBase a) [(wordBase a, w)] else s2)
      | r => r).All (Reads s) := by
    generalize busRead s .iu false (wordBase a) .word = b at h ⊢
    cases b with
    | ok v t =>
      simp only
      split
      · exact Reads.trans h (updateCached_quiet _ _ _ _ _ _).reads
      · simp only [Bus.All]
        split
        · exact Reads.trans h (allocate_quiet _ _ _ _).reads
        · exact h
    | err t => exact h
    | refuse r => trivial
  cases use with
  | normal =>
    simp only
    have hl := cacheLookup_quiet s .dcache (wordBase a)
    generalize cacheLookup s .dcache (wordBase a) = l at hl ⊢
    cases l with
    | hit v t => exact hl.reads
    | refill k t =>
      have h := busRead_reads t .iu false (wordBase a) .word
      simp only at hl ⊢
      generalize busRead t .iu false (wordBase a) .word = b at h ⊢
      cases b with
      | ok v u => exact Reads.trans hl.reads (Reads.trans h (fillWay_quiet _ _ _ _ _).reads)
      | err u => exact Reads.trans hl.reads h
      | refuse r => trivial
    | miss =>
      simp only
      generalize busRead s .iu false (wordBase a) .word = b at h ⊢
      cases b with
      | ok v u =>
        simp only [Bus.All]
        split
        · exact Reads.trans h (allocate_quiet _ _ _ _).reads
        · exact h
      | err u => exact h
      | refuse r => trivial
  | forceAllocate => exact force .forceAllocate
  | forceUpdate => exact force .forceUpdate

/-- What a data read of the IU may touch. -/
theorem dataRead_reads (s : State) (use : CacheUse) (a : Word) (sz : Size) : (dataRead s use a sz).All (Reads s) := by
  unfold dataRead
  split
  · have h := cachedReadWord_reads s use a
    generalize cachedReadWord s use a = b at h ⊢
    cases b with
    | ok v t => exact h
    | err t => exact h
    | refuse r => trivial
  · exact busRead_reads _ _ _ _ _

/-! ### Bytes of a merged word -/

theorem merge_byte (d x : Word) (m : Word) (k : Nat) (hk : k < 4) (hm : ∀ i < 8, m.getLsbD (8 * k + i) = false) :
    (mergeMask d x m).extractLsb' (8 * k) 8 = d.extractLsb' (8 * k) 8 := by
  ext i hi
  have h32 : 8 * k + i < 32 := by omega
  have h := hm i hi
  rw [BitVec.getLsbD_eq_getElem h32] at h
  simp [mergeMask, h, h32]

theorem merge_byte_in (d x : Word) (m : Word) (k : Nat) (hk : k < 4) (hm : ∀ i < 8, m.getLsbD (8 * k + i) = true) :
    (mergeMask d x m).extractLsb' (8 * k) 8 = x.extractLsb' (8 * k) 8 := by
  ext i hi
  have h32 : 8 * k + i < 32 := by omega
  have h := hm i hi
  rw [BitVec.getLsbD_eq_getElem h32] at h
  simp [mergeMask, h, h32]

theorem mergeBytes_byte1 (d v : Word) (o k : Nat) (ho : o < 4) (hk : k < 4) :
    (mergeBytes d 1 o v).extractLsb' (8 * (3 - k)) 8 = if k = o then v.extractLsb' 0 8 else d.extractLsb' (8 * (3 - k)) 8 := by
  unfold mergeBytes
  rw [if_neg (by decide)]
  split
  · next h =>
    subst h
    rw [merge_byte_in _ _ _ _ (by omega) (by interval_cases k <;> decide)]
    ext i hi
    interval_cases k <;> simp <;> omega
  · next h => 
    rw [merge_byte _ _ _ _ (by omega)]
    interval_cases o <;> interval_cases k <;> first | omega | decide

theorem mergeBytes_byte2 (d v : Word) (o k : Nat) (ho : o = 0 ∨ o = 2) (hk : k < 4) :
    (mergeBytes d 2 o v).extractLsb' (8 * (3 - k)) 8 =
      if k = o then v.extractLsb' 8 8 else if k = o + 1 then v.extractLsb' 0 8 else d.extractLsb' (8 * (3 - k)) 8 := by
  unfold mergeBytes
  rw [if_neg (by decide)]
  rcases ho with rfl | rfl <;> interval_cases k
  all_goals first
    | (rw [merge_byte _ _ _ _ (by omega) (by decide)]; rfl)
    | rw [merge_byte_in _ _ _ _ (by omega) (by decide)]
  all_goals
    ext i hi
    simp
  · rw [show 24 + i - 16 = 8 + i by omega]; simp; omega
  · intros; omega

/-- Byte `k` of the word at `a` is the byte at `a + k`. -/
theorem wordAt_byte (s : State) (a k : Nat) (hk : k < 4) : (s.wordAt a).extractLsb' (8 * (3 - k)) 8 = s.byteAt (a + k) := by
  unfold State.wordAt wordOfBytes
  interval_cases k
  all_goals
    ext i hi
    simp only [BitVec.getElem_extractLsb', BitVec.getLsbD_append]
    repeat' split
    all_goals first | omega | (rw [← BitVec.getLsbD_eq_getElem]; try congr 1; try omega)

/-- The bytes a write of `n` bytes stores, lowest address first (20_memory R201). -/
def storeBytes (n : Nat) (v : Word) : List Byte :=
  if n = 1 then [v.extractLsb' 0 8] else if n = 2 then [v.extractLsb' 8 8, v.extractLsb' 0 8] else bytesOfWord v

/-- Width and place of a naturally aligned transfer within its word. -/
def LaneOk (n o : Nat) : Prop := (n = 1 ∧ o < 4) ∨ (n = 2 ∧ (o = 0 ∨ o = 2)) ∨ (n = 4 ∧ o = 0)

theorem storeBytes_length {n o : Nat} (h : LaneOk n o) (v : Word) : (storeBytes n v).length = n := by
  rcases h with ⟨rfl, _⟩ | ⟨rfl, _⟩ | ⟨rfl, _⟩ <;> rfl

theorem byteAt_putWord_lane (s : State) (b k : Nat) (w : Word) (f : BitVec 39) (hk : k < 4) :
    (s.putWord b w f).byteAt (b + k) = w.extractLsb' (8 * (3 - k)) 8 := by
  rw [byteAt_putWord]
  interval_cases k <;> simp

/-- Putting the merged word stores exactly the bytes written. -/
theorem putWord_merged (s : State) (b n o : Nat) (v : Word) (f : BitVec 39) (h : LaneOk n o) (x : Nat) :
    (s.putWord b (mergeBytes (s.wordAt b) n o v) f).byteAt x =
      if hx : b + o ≤ x ∧ x < b + o + n then (storeBytes n v)[x - (b + o)]'(by rw [storeBytes_length h]; omega) else s.byteAt x := by
  by_cases hin : b ≤ x ∧ x < b + 4
  · obtain ⟨k, rfl⟩ : ∃ k, x = b + k := ⟨x - b, by omega⟩
    have hk : k < 4 := by omega
    rw [byteAt_putWord_lane _ _ _ _ _ hk]
    rcases h with ⟨rfl, ho⟩ | ⟨rfl, ho⟩ | ⟨rfl, rfl⟩
    · rw [mergeBytes_byte1 _ _ _ _ ho hk, wordAt_byte _ _ _ hk]
      by_cases e : k = o
      · subst e; simp [storeBytes]
      · rw [if_neg e, dif_neg (by omega)]
    · rw [mergeBytes_byte2 _ _ _ _ ho hk, wordAt_byte _ _ _ hk]
      by_cases e : k = o
      · subst e; simp [storeBytes]
      · rw [if_neg e]
        by_cases e2 : k = o + 1
        · subst e2
          rw [if_pos rfl, dif_pos (by omega)]
          simp [storeBytes, show b + (o + 1) - (b + o) = 1 by omega]
        · rw [if_neg e2, dif_neg (by omega)]
    · rw [dif_pos (by omega), mergeBytes, if_pos rfl]
      interval_cases k <;> simp [storeBytes, bytesOfWord]
  · rw [byteAt_putWord_of_ne _ _ _ _ _ (by omega), dif_neg]
    rcases h with ⟨rfl, _⟩ | ⟨rfl, _⟩ | ⟨rfl, _⟩ <;> omega

/-! ### Writes -/

theorem wordBase_toNat (a : Word) : (wordBase a).toNat = a.toNat - a.toNat % 4 := by
  have e : wordBase a = (a >>> 2) <<< 2 := by
    unfold wordBase
    ext i hi
    have hm : (0xFFFFFFFC#32).getLsbD i = decide (2 ≤ i) := by
      interval_cases i <;> rfl
    rw [BitVec.getLsbD_eq_getElem hi] at hm
    simp only [BitVec.getElem_and, hm, BitVec.getElem_shiftLeft]
    by_cases h : i < 2
    · simp [h]
    · have : 2 + (i - 2) = i := by omega
      simp [h, this, show 2 ≤ i by omega, BitVec.getLsbD_eq_getElem hi]
  rw [e]
  have h := a.isLt
  simp only [BitVec.toNat_shiftLeft, BitVec.toNat_ushiftRight, Nat.shiftRight_eq_div_pow, Nat.shiftLeft_eq]
  omega

theorem edacFix_zero : edacFix 0 = some 0 := by decide

theorem fixData_zero (d : Word) : fixData d 0 0 = d := by simp [fixData, flipData]

theorem wordAt_free (s : State) (a : Nat) : s.free.2.wordAt a = s.wordAt a := rfl

/-- A write of a RAM word or of part of one, without an error in the word: the bytes stored, and what is kept (20_memory R273, R276). -/
theorem writeRam_spec {s t : State} {b : RamBank} {a : Word} {n : Nat} {v : Word} (hl : LaneOk n (a.toNat % 4))
    (hf : n = 4 ∨ s.flipAt (wordBase a).toNat = 0) (h : writeRam s b a n v = some t) :
    t.cpu = s.cpu ∧ (Memory.wf s = true → Memory.wf t = true) ∧
      (∀ x, (x < a.toNat ∨ a.toNat + n ≤ x) → t.byteAt x = s.byteAt x) ∧
      ((ewbOn s.dev = false ∨ n ≠ 4) → StoresBytes s t a (storeBytes n v)) := by
  have hb := wordBase_toNat a
  have put (s0 : State) (hq : Quiet s s0) (f : BitVec 39) (w : Word) :
      (s0.putWord (wordBase a).toNat (mergeBytes (s.wordAt (wordBase a).toNat) n (a.toNat % 4) w) f).cpu = s.cpu ∧
      (Memory.wf s = true → Memory.wf (s0.putWord (wordBase a).toNat
        (mergeBytes (s.wordAt (wordBase a).toNat) n (a.toNat % 4) w) f) = true) ∧
      (∀ x, (x < a.toNat ∨ a.toNat + n ≤ x) → (s0.putWord (wordBase a).toNat
        (mergeBytes (s.wordAt (wordBase a).toNat) n (a.toNat % 4) w) f).byteAt x = s.byteAt x) ∧
      StoresBytes s (s0.putWord (wordBase a).toNat (mergeBytes (s.wordAt (wordBase a).toNat) n (a.toNat % 4) w) f) a
        (storeBytes n w) := by
    have hw : s.wordAt (wordBase a).toNat = s0.wordAt (wordBase a).toNat := (wordAt_congr hq.2.1 _).symm
    have hbyte (x : Nat) : s0.byteAt x = s.byteAt x := byteAt_congr hq.2.1 x
    have key := putWord_merged s0 (wordBase a).toNat n (a.toNat % 4) w f hl
    have hsum : (wordBase a).toNat + a.toNat % 4 = a.toNat := by omega
    simp only [hsum] at key
    rw [hw]
    refine ⟨hq.1, fun w' => putWord_wf _ _ _ _ (hq.reads.2.1 w'), fun x hx => ?_, fun k hk => ?_, fun x hx => ?_⟩
    · rw [key, dif_neg (by omega), hbyte]
    · rw [storeBytes_length hl] at hk
      rw [key, dif_pos (by omega)]
      simp
    · rw [storeBytes_length hl] at hx
      rw [key, dif_neg (by omega), hbyte]
  unfold writeRam at h
  by_cases hn : n = 4
  · subst hn
    have h0 : a.toNat % 4 = 0 := by
      rcases hl with ⟨h, _⟩ | ⟨h, _⟩ | ⟨_, h⟩
      · omega
      · omega
      · exact h
    have hab : (wordBase a).toNat = a.toNat := by omega
    simp only [if_pos] at h
    have hm (w : Word) : mergeBytes (s.wordAt a.toNat) 4 0 w = w := by simp [mergeBytes]
    have put' (f : BitVec 39) (w : Word) := put s (Quiet.refl s) f w
    simp only [hab, h0, hm] at put'
    unfold writeRamWord at h
    simp only [Option.some.injEq] at h
    cases hw : b.width with
    | w32 =>
      rw [hw] at h
      simp only at h
      by_cases he : ewbOn s.dev = true
      · rw [if_pos he] at h
        subst h
        refine ⟨(put' _ _).1, (put' _ _).2.1, (put' _ _).2.2.1, fun k => ?_⟩
        rcases k with k | k
        · simp [he] at k
        · exact absurd rfl k
      · rw [if_neg he] at h
        subst h
        exact ⟨(put' _ _).1, (put' _ _).2.1, (put' _ _).2.2.1, fun _ => (put' _ _).2.2.2⟩
    | w8 =>
      rw [hw] at h
      simp only at h
      repeat' split at h
      all_goals
        subst h
        exact ⟨(put' _ _).1, (put' _ _).2.1, (put' _ _).2.2.1, fun _ => (put' _ _).2.2.2⟩
    | w16 =>
      rw [hw] at h
      simp only at h
      subst h
      exact ⟨(put' _ _).1, (put' _ _).2.1, (put' _ _).2.2.1, fun _ => (put' _ _).2.2.2⟩
  · have hf0 : s.flipAt (wordBase a).toNat = 0 := hf.resolve_left hn
    rw [if_neg hn] at h
    unfold writeRamSub at h
    simp only [hf0, edacFix_zero, fixData_zero] at h
    have put' (s0 : State) (hq : Quiet s s0) (f : BitVec 39) := put s0 hq f v
    repeat' split at h
    all_goals first
      | (cases h; exact ⟨(put' s (Quiet.refl s) _).1, (put' s (Quiet.refl s) _).2.1, (put' s (Quiet.refl s) _).2.2.1,
          fun _ => (put' s (Quiet.refl s) _).2.2.2⟩)
      | (cases h; exact ⟨(put' _ (free_quiet s) _).1, (put' _ (free_quiet s) _).2.1, (put' _ (free_quiet s) _).2.2.1,
          fun _ => (put' _ (free_quiet s) _).2.2.2⟩)
      | cases h

/-- From `s` to `t` a write of `n` bytes at `a`: no register changes, memory keeps its form, no other byte changes. -/
def Writes (s : State) (a : Word) (n : Nat) (t : State) : Prop :=
  t.cpu = s.cpu ∧ (Memory.wf s = true → Memory.wf t = true) ∧ ∀ x, (x < a.toNat ∨ a.toNat + n ≤ x) → t.byteAt x = s.byteAt x

theorem Quiet.writes {s t : State} (h : Quiet s t) (a : Word) (n : Nat) : Writes s a n t :=
  ⟨h.1, h.reads.2.1, fun x _ => byteAt_congr h.2.1 x⟩

theorem Writes.quiet {s t u : State} {a : Word} {n : Nat} (h : Writes s a n t) (k : Quiet t u) : Writes s a n u :=
  ⟨k.1.trans h.1, fun w => k.reads.2.1 (h.2.1 w), fun x hx => (byteAt_congr k.2.1 x).trans (h.2.2 x hx)⟩

theorem Quiet.then_writes {s t u : State} {a : Word} {n : Nat} (k : Quiet s t) (h : Writes t a n u) : Writes s a n u :=
  ⟨h.1.trans k.1, fun w => h.2.1 (k.reads.2.1 w), fun x hx => (h.2.2 x hx).trans (byteAt_congr k.2.1 x)⟩

theorem writeProm_spec {s : State} {a : Word} {n : Nat} {v : Word} (hl : LaneOk n (a.toNat % 4)) :
    Writes s a n (writeProm s a n v) ∧ StoresBytes s (writeProm s a n v) a (storeBytes n v) := by
  have hb := wordBase_toNat a
  have hsum : (wordBase a).toNat + a.toNat % 4 = a.toNat := by omega
  unfold writeProm
  simp only
  generalize flipCheck (s.flipAt (wordBase a).toNat) ++
    (mergeBytes (s.wordAt (wordBase a).toNat) n (a.toNat % 4) v ^^^ s.wordAt (wordBase a).toNat ^^^
      flipData (s.flipAt (wordBase a).toNat)) = f
  have key := putWord_merged s (wordBase a).toNat n (a.toNat % 4) v f hl
  simp only [hsum] at key
  refine ⟨⟨rfl, fun w => putWord_wf _ _ _ _ w, fun x hx => ?_⟩, fun k hk => ?_, fun x hx => ?_⟩
  · rw [key, dif_neg (by omega)]
  · rw [storeBytes_length hl] at hk
    rw [key, dif_pos (by omega)]
    simp
  · rw [storeBytes_length hl] at hx
    rw [key, dif_neg (by omega)]

theorem areaWrite_writes {s : State} {a : Word} {sz : Size} {v : Word} (hd : s.debugMode = false)
    (hl : LaneOk sz.bytes (a.toNat % 4)) (hf : sz.bytes = 4 ∨ s.flipAt (wordBase a).toNat = 0) :
    (areaWrite s a sz v).All (Writes s a sz.bytes) := by
  have q {t : State} (h : Quiet s t) : Writes s a sz.bytes t := h.writes a sz.bytes
  unfold areaWrite
  simp only
  cases areaOf a with
  | prom =>
    simp only
    split
    · exact q (Quiet.refl s)
    · exact (writeProm_spec hl).1
  | io =>
    simp only
    split
    · exact q (Quiet.refl s)
    · exact q ⟨rfl, rfl, rfl⟩
  | ram =>
    simp only [ramWrite]
    split
    · exact q (Quiet.refl s)
    · split
      · exact q (Quiet.refl s)
      · split
        · exact q (Quiet.refl s)
        · split
          · exact q (Quiet.refl s)
          · next h =>
            have := writeRam_spec hl hf h
            exact ⟨this.1, this.2.1, this.2.2.1⟩
  | regs =>
    simp only
    split
    · exact q (writeReg_quiet _ _ _)
    · trivial
  | dsu =>
    simp only
    split
    · exact q (writeDsu_quiet _ _ _ hd)
    · exact q (Quiet.refl s)
  | pciRegs =>
    simp only
    split
    · split
      · next h => exact q (writePci_quiet h)
      · trivial
    · trivial
  | pciIo => exact q (pciWindowWrite_quiet _ _ _ _ _)
  | pciMem => exact q (pciWindowWrite_quiet _ _ _ _ _)
  | unassigned => exact q (Quiet.refl s)

/-- What a write transfer may touch. -/
theorem busWrite_writes {s : State} {m : Master} {a : Word} {sz : Size} {v : Word} (hd : s.debugMode = false)
    (hl : LaneOk sz.bytes (a.toNat % 4)) (hf : sz.bytes = 4 ∨ s.flipAt (wordBase a).toNat = 0) :
    (busWrite s m a sz v).All (Writes s a sz.bytes) := by
  unfold busWrite
  have h := areaWrite_writes (v := v) hd hl hf
  generalize areaWrite s a sz v = b at h ⊢
  cases b with
  | ok u t =>
    simp only [Bus.All]
    refine Writes.quiet (Writes.quiet h ?_) (dsuSeesBus_quiet _ _ _ _ _ _)
    split
    · exact Quiet.refl t
    · exact snoop_quiet _ _
  | err t => exact Writes.quiet (Writes.quiet h (latchBusError_quiet _ _ _ _ _)) (dsuSeesBus_quiet _ _ _ _ _ _)
  | refuse r => trivial

/-- What a data write of the IU may touch. -/
theorem dataWrite_writes {s : State} {a : Word} {sz : Size} {v : Word} (hd : s.debugMode = false)
    (hl : LaneOk sz.bytes (a.toNat % 4)) (hf : sz.bytes = 4 ∨ s.flipAt (wordBase a).toNat = 0) :
    (dataWrite s a sz v).All (Writes s a sz.bytes) := by
  unfold dataWrite
  have h := busWrite_writes (m := .iu) (v := v) hd hl hf
  generalize busWrite s .iu a sz v = b at h ⊢
  cases b with
  | ok u t =>
    simp only [Bus.All]
    split
    · exact Writes.quiet h (updateCached_quiet _ _ _ _ _ _)
    · exact h
  | err t => exact h
  | refuse r => trivial

/-! ### Plain memory -/

theorem cacheable_ram {a : Word} (h : areaOf a = .ram) : cacheable a = true := by simp [cacheable, h]

theorem dsuSeesBus_idle {s : State} {a : Word} (h : DsuIdle s a) (m : Master) (w : Bool) (n : Nat) (v : Option Word) :
    dsuSeesBus s m w a n v = s := by
  have hb : bpBus s w a = false := by cases w; exact h.2.1; exact h.2.2
  simp [dsuSeesBus, traceBusLine, h.1, hb]

theorem lostOpcode_idle {s : State} {a : Word} (h : DsuIdle s a) : lostOpcode s = (0, s) := by simp [lostOpcode, h.1]

theorem latchBusError_idle {s : State} {a : Word} (h : DsuIdle s a) (m : Master) (r : Bool) (n : Nat) :
    DsuIdle (latchBusError s m r a n) a := by
  unfold latchBusError
  split <;> exact h

/-- A word access to the on-chip or bridge registers has a meaning at every offset (10_state R58). -/
@[simp] theorem widthDefined_word (listed : Bool) : widthDefined listed .word = true := rfl

theorem PlainRam.readable {s : State} {a : Word} (h : PlainRam s a) : ReadableRam s a :=
  ⟨h.1, h.2.1, h.2.2.1, h.2.2.2.1, h.2.2.2.2.1, h.2.2.2.2.2.2⟩

/-- A read transfer of readable RAM gives what memory holds and changes nothing (20_memory R206, R214). -/
theorem busRead_readable {s : State} {a : Word} (h : ReadableRam s a) (m : Master) (f : Bool) (sz : Size) :
    busRead s m f a sz = .ok (subword (s.wordAt (wordBase a).toNat) sz.bytes (a.toNat % 4)) s := by
  obtain ⟨ha, hb, hx, he, hf, hd⟩ := h
  obtain ⟨b, hb⟩ := Option.isSome_iff_exists.mp hb
  have hr : readRam s b (wordBase a) = (some (s.wordAt (wordBase a).toNat), s) := by
    simp [readRam, tcbLatches, he, hf]
  simp [busRead, areaRead, ha, hb, hx, hr, dsuSeesBus_idle hd]

/-- A read of plain RAM gives what memory holds and changes nothing (20_memory R206, R214). -/
theorem dataRead_plain {s : State} {a : Word} (h : PlainRam s a) (use : CacheUse) (sz : Size) :
    dataRead s use a sz = .ok (subword (s.wordAt (wordBase a).toNat) sz.bytes (a.toNat % 4)) s := by
  have hc := h.2.2.2.2.2.1
  unfold dataRead
  rw [if_neg (by simp [hc]), busRead_readable h.readable]

/-- The check bits of other words are left alone. -/
theorem flipAt_putWord_ne (s : State) {a x : Nat} (w : Word) (f : BitVec 39) (h : x / 4 ≠ a / 4) :
    (s.putWord a w f).flipAt x = s.flipAt x := by
  simp [State.flipAt, State.putWord, sparseGet_set, h]

/-- A bank with EDAC is not 16 bits wide (20_memory R270). -/
theorem ramBank_en_width {d : Dev} {a : Word} {b : RamBank} (h : ramBank d a = some b) (he : b.en = true) : b.width ≠ .w16 := by
  have key (x y z : Bool) (w : Width) (p q : Nat) (k : some (ramBankOf x y z w p q) = some b) : b.width ≠ .w16 := by
    cases k
    simp only [ramBankOf, Bool.and_eq_true] at he ⊢
    simpa using he.2
  unfold ramBank at h
  simp only at h
  repeat' split at h
  all_goals first
    | exact key _ _ _ _ _ _ h
    | cases h

/-- A write transfer to readable RAM that may be written stores its bytes, leaves valid check bits where the bank has EDAC, and changes
nothing else of the state, whatever the caches do (20_memory R206, R273, R276). -/
theorem areaWrite_readable {s : State} {a : Word} (h : ReadableRam s a) (hw : writeProtected s.dev a = false) (hewb : ewbOn s.dev = false)
    {sz : Size} (hl : LaneOk sz.bytes (a.toNat % 4)) (v : Word) :
    ∃ t, areaWrite s a sz v = .ok () t ∧ StoresBytes s t a (storeBytes sz.bytes v) ∧
      t = { s with mem := t.mem, memFlip := t.memFlip } ∧ (∀ x, x / 4 ≠ a.toNat / 4 → t.flipAt x = s.flipAt x) ∧
      ∀ b, ramBank s.dev a = some b → b.en = true → t.flipAt a.toNat = 0 := by
  obtain ⟨ha, hb, hx, he, hf, hd⟩ := h
  obtain ⟨b, hb⟩ := Option.isSome_iff_exists.mp hb
  have hput (x : Nat) (y : Word) (f : BitVec 39) :
      s.putWord x y f = { s with mem := (s.putWord x y f).mem, memFlip := (s.putWord x y f).memFlip } := rfl
  have hbase := wordBase_toNat a
  have hl1 : sz.bytes = 4 → (wordBase a).toNat = a.toNat := by
    intro h4
    rcases hl with ⟨h, _⟩ | ⟨h, _⟩ | ⟨_, h⟩ <;> omega
  have hflip (y : Word) (f : BitVec 39) (x : Nat) (h : x / 4 ≠ a.toNat / 4) :
      (s.putWord (wordBase a).toNat y f).flipAt x = s.flipAt x := flipAt_putWord_ne s y f (by omega)
  have hr : ∃ t, writeRam s b a sz.bytes v = some t ∧ t = { s with mem := t.mem, memFlip := t.memFlip } ∧
      (∀ x, x / 4 ≠ a.toNat / 4 → t.flipAt x = s.flipAt x) ∧ (b.en = true → b.width ≠ .w16 → t.flipAt a.toNat = 0) := by
    have h0 (y : Word) : (s.putWord (wordBase a).toNat y 0).flipAt a.toNat = 0 := by
      rw [flipAt_putWord, if_pos (by omega)]
    unfold writeRam
    split
    · next h4 =>
      refine ⟨_, rfl, ?_⟩
      rw [hl1 h4] at hflip h0
      unfold writeRamWord
      simp only [hewb]
      cases hw : b.width <;> simp only [Bool.false_eq_true, if_false]
      · split
        · exact ⟨hput _ _ _, hflip _ _, fun _ _ => h0 _⟩
        · next hen => exact ⟨hput _ _ _, hflip _ _, fun h _ => absurd h hen⟩
      · exact ⟨hput _ _ _, hflip _ _, fun _ h => absurd rfl h⟩
      · exact ⟨hput _ _ _, hflip _ _, fun _ _ => h0 _⟩
    · unfold writeRamSub
      simp only [hf, edacFix_zero, hewb, he]
      simp only [Bool.false_eq_true, if_false]
      repeat' split
      all_goals first
        | exact ⟨_, rfl, hput _ _ _, hflip _ _, fun _ _ => h0 _⟩
        | (refine ⟨_, rfl, hput _ _ _, hflip _ _, fun h1 h2 => ?_⟩; simp_all)
  obtain ⟨t, ht, hteq, hfl, hf0⟩ := hr
  have spec := writeRam_spec hl (.inr hf) ht
  refine ⟨t, ?_, spec.2.2.2 (.inl hewb), hteq, hfl, fun b' hb' he' => ?_⟩
  case refine_2 =>
    rw [hb] at hb'
    cases hb'
    exact hf0 he' (ramBank_en_width hb he')
  unfold areaWrite ramWrite
  simp only [ha, hb, hx, hw, ht]
  simp

/-- A write of plain writable RAM is its transfer alone. -/
theorem dataWrite_plain {s : State} {a : Word} (h : WritableRam s a) {sz : Size} (hl : LaneOk sz.bytes (a.toNat % 4)) (v : Word) :
    ∃ t, dataWrite s a sz v = .ok () t ∧ StoresBytes s t a (storeBytes sz.bytes v) ∧
      t = { s with mem := t.mem, memFlip := t.memFlip } ∧ (∀ x, x / 4 ≠ a.toNat / 4 → t.flipAt x = s.flipAt x) ∧
      ∀ b, ramBank s.dev a = some b → b.en = true → t.flipAt a.toNat = 0 := by
  obtain ⟨t, ht, hs, hteq, hrest⟩ := areaWrite_readable h.1.readable h.2.1 h.2.2 hl v
  refine ⟨t, ?_, hs, hteq, hrest⟩
  have hdt : DsuIdle t a := by rw [hteq]; exact h.1.2.2.2.2.2.2
  have hct : cacheOn t.dev .dcache = false := by rw [hteq]; exact h.1.2.2.2.2.2.1
  unfold dataWrite busWrite
  simp only [ht]
  simp [dsuSeesBus_idle hdt, hct]

end Sys2Proof.Machine
end

