-- ==== Sys2Proof/Laws/Cache.lean ====
section
/-! SUPPORT. The caches: what a lookup finds, what a fill, an update and an invalidation leave, and the accesses of the IU to RAM with
a cache on (20_memory R246 to R254). -/

namespace Sys2Proof.Machine

/-! ### One cache -/

@[simp] theorem Cache.tag_putTag (x : Cache) (k j : Nat) (w : CacheWord) : (x.putTag k w).tag j = if j = k then w else x.tag j := by
  simp [Cache.tag, Cache.putTag]
@[simp] theorem Cache.word_putTag (x : Cache) (k j : Nat) (w : CacheWord) : (x.putTag k w).word j = x.word j := rfl
@[simp] theorem Cache.word_putWord (x : Cache) (k j : Nat) (w : CacheWord) : (x.putWord k w).word j = if j = k then w else x.word j := by
  simp [Cache.word, Cache.putWord]
@[simp] theorem Cache.tag_putWord (x : Cache) (k j : Nat) (w : CacheWord) : (x.putWord k w).tag j = x.tag j := rfl
@[simp] theorem Cache.tag_touch (x : Cache) (set w j : Nat) : (x.touch set w).tag j = x.tag j := rfl
@[simp] theorem Cache.word_touch (x : Cache) (set w j : Nat) : (x.touch set w).word j = x.word j := rfl
@[simp] theorem getCache_setCache (s : State) (c : CacheId) (x : Cache) : (s.setCache c x).getCache c = x := by cases c <;> rfl
theorem getCache_dev (s : State) (d : Dev) (c : CacheId) : State.getCache { s with dev := d } c = s.getCache c := by cases c <;> rfl

/-- Where a set's order of ways has no entry below 4 it is the default, which has (20_memory R243). -/
theorem touch_usedLast (x : Cache) (c : CacheId) (a : Word) (w : Nat) : UsedLast (x.touch (cacheSet c a) w) c a w := by
  simp [UsedLast, Cache.order, Cache.touch]

theorem onesBelow_zero (n : Nat) : onesBelow 0 n = 0 := by induction n <;> simp_all [onesBelow]
@[simp] theorem parityBad_clean (v : Word) : parityBad (CacheWord.clean v) = false := by simp [parityBad, CacheWord.clean]

/-! ### Lookups -/

theorem holdsWord_congr {c : CacheId} {x y : Cache} {a b : Word} {w : Nat}
    (ht : y.tag (tagKey c w (cacheSet c b)) = x.tag (tagKey c w (cacheSet c a))) (hb : b.extractLsb' 13 19 = a.extractLsb' 13 19)
    (hv : validBit c b = validBit c a) : holdsWord c y b w = holdsWord c x a w := by
  simp only [holdsWord, ht, hb, hv]

/-- What a lookup finds rests on the tags alone. -/
theorem hitWay_tags {c : CacheId} {x y : Cache} (h : y.tags = x.tags) (a : Word) : hitWay c y a = hitWay c x a := by
  unfold hitWay
  generalize cacheWays c = n
  induction n with
  | zero => rfl
  | succ n ih =>
    have hn : holdsWord c y a n = holdsWord c x a n :=
      holdsWord_congr (by simp only [Cache.tag, h]) rfl rfl
    unfold hitWayBelow
    rw [ih, hn]

/-- No way found: none holds the word. -/
theorem hitWayBelow_eq_none {c : CacheId} {x : Cache} {a : Word} {n : Nat} :
    hitWayBelow c x a n = none ↔ ∀ w < n, holdsWord c x a w = false := by
  induction n with
  | zero => simp [hitWayBelow]
  | succ n ih =>
    unfold hitWayBelow
    cases h : hitWayBelow c x a n with
    | some v =>
      simp only [reduceCtorEq, false_iff]
      intro k
      rw [ih.2 fun w hw => k w (by omega)] at h
      cases h
    | none =>
      simp only [ite_eq_right_iff, reduceCtorEq, imp_false, Bool.not_eq_true]
      exact ⟨fun k w hw => (Nat.lt_succ_iff_lt_or_eq.1 hw).elim (ih.1 h w) fun e => e ▸ k, fun k => k n (Nat.lt_succ_self n)⟩

/-- The way found is the lowest that holds the word. -/
theorem hitWayBelow_eq_some {c : CacheId} {x : Cache} {a : Word} {n w : Nat} :
    hitWayBelow c x a n = some w ↔ w < n ∧ holdsWord c x a w = true ∧ ∀ v < w, holdsWord c x a v = false := by
  induction n with
  | zero => simp [hitWayBelow]
  | succ n ih =>
    unfold hitWayBelow
    cases h : hitWayBelow c x a n with
    | some v =>
      rw [h] at ih
      constructor
      · intro k
        obtain ⟨h1, h2⟩ := ih.1 k
        exact ⟨by omega, h2⟩
      · rintro ⟨k1, k2, k3⟩
        rcases Nat.lt_succ_iff_lt_or_eq.1 k1 with e | rfl
        · exact ih.2 ⟨e, k2, k3⟩
        · rw [hitWayBelow_eq_none.2 k3] at h
          cases h
    | none =>
      have none_below := hitWayBelow_eq_none.1 h
      constructor
      · intro k
        by_cases hh : holdsWord c x a n = true
        · simp only [hh, if_true, Option.some.injEq] at k
          exact k ▸ ⟨Nat.lt_succ_self n, hh, none_below⟩
        · simp only [hh] at k
          cases k
      · rintro ⟨k1, k2, -⟩
        rcases Nat.lt_succ_iff_lt_or_eq.1 k1 with e | rfl
        · simp [none_below w e] at k2
        · simp [k2]

theorem victim_lt (c : CacheId) (x : Cache) (set : Nat) : x.victim c set < cacheWays c := by
  unfold Cache.victim
  split
  · next w l h =>
    have : w ∈ (x.order set).filter fun v => v < cacheWays c := by rw [h]; exact List.mem_cons_self
    simpa using (List.mem_filter.1 this).2
  · cases c <;> decide

theorem findWay_lt {c : CacheId} {x : Cache} {a : Word} {n w : Nat} (h : findWay c x a n = some w) : w < n := by
  induction n with
  | zero => cases h
  | succ n ih =>
    unfold findWay at h
    split at h
    · next v hv => cases h; exact Nat.lt_succ_of_lt (ih hv)
    · split at h <;> cases h
      exact Nat.lt_succ_self _

/-! ### Fills -/

/-- No error is injected into the caches (20_memory R255). -/
theorem injectCache_off {d : Dev} (h : d.ccr1.extractLsb' 11 3 ≠ 0b011#3) (sel : BitVec 2) (m v : Word) :
    injectCache d sel m v = CacheWord.clean v := by
  unfold injectCache; rw [if_neg (by simp [h])]

/-- The tag word a fill builds, whatever lock and valid bits it keeps, has the tag of `a` and the valid bit of the word at `a`. -/
theorem fillTag_holds (c : CacheId) (a old m : Word) (hm : m = old &&& 0x80000F00#32 ∨ m = 0) :
    let t := m ||| ((a.extractLsb' 13 19).setWidth 32 <<< 12) ||| (1#32 <<< validBit c a)
    t.extractLsb' 12 19 = a.extractLsb' 13 19 ∧ bit t (validBit c a) = true := by
  have hv : 8 ≤ validBit c a ∧ validBit c a < 12 := by cases c <;> simp only [validBit] <;> omega
  generalize validBit c a = v at hv
  obtain ⟨h1, h2⟩ := hv
  have lo (i : Nat) (hi : 12 ≤ i) (hj : i < 31) : m.getLsbD i = false := by
    rcases hm with rfl | rfl
    · have : (0x80000F00#32).getLsbD i = false := by interval_cases i <;> rfl
      simp [this]
    · simp
  constructor
  · ext i hi
    have hone : (1#32 <<< v).getLsbD (12 + i) = false := by interval_cases v <;> interval_cases i <;> rfl
    simp only [BitVec.getElem_extractLsb', BitVec.getLsbD_or, lo (12 + i) (by omega) (by omega), hone, Bool.false_or, Bool.or_false]
    simp [show 12 + i < 32 by omega, hi]
  · have hone : (1#32 <<< v).getLsbD v = true := by interval_cases v <;> rfl
    simp [bit, hone]

/-- The words of a fill, put one after another: other data words and all tags are kept (20_memory R246). -/
theorem foldl_putWord (d : Dev) (c : CacheId) (w : Nat) (words : List (Word × Word)) (x : Cache) :
    let y := words.foldl (fun y p => y.putWord (dataKey w p.1) (injectData d c p.2)) x
    y.tags = x.tags ∧ y.lru = x.lru ∧ ∀ k, (∀ p ∈ words, k ≠ dataKey w p.1) → y.word k = x.word k := by
  induction words generalizing x with
  | nil => exact ⟨rfl, rfl, fun _ _ => rfl⟩
  | cons p rest ih =>
    obtain ⟨h1, h2, h3⟩ := ih (x.putWord (dataKey w p.1) (injectData d c p.2))
    refine ⟨h1, h2, fun k hk => (h3 k fun q hq => hk q (List.mem_cons_of_mem _ hq)).trans ?_⟩
    simp [hk p List.mem_cons_self]

/-- Two addresses of one line that one valid bit covers. -/
def SameUnit (c : CacheId) (a b : Word) : Prop :=
  b.extractLsb' 13 19 = a.extractLsb' 13 19 ∧ cacheSet c b = cacheSet c a ∧ validBit c b = validBit c a

/-- What a fill of way `w` leaves: its tag and the words filled are good, way `w` holds every word of the unit, nothing else of the cache
or of the state changes (20_memory R246, R254). -/
theorem fillWay_spec {s : State} {c : CacheId} (hi : s.dev.ccr1.extractLsb' 11 3 ≠ 0b011#3) (w : Nat) (a : Word)
    (words : List (Word × Word)) :
    let t := fillWay s c w a words
    t = s.setCache c (t.getCache c) ∧ OtherLinesKept s t c a w (words.map Prod.fst) ∧ badTag t c a w = false ∧
      (∀ b, SameUnit c a b → holdsWord c (t.getCache c) b w = true) ∧ UsedLast (t.getCache c) c a w ∧
      ∀ p ∈ words, words.Pairwise (fun p q => dataKey w p.1 ≠ dataKey w q.1) →
        (t.getCache c).word (dataKey w p.1) = CacheWord.clean p.2 := by
  intro t
  obtain ⟨h1, -, h3⟩ := foldl_putWord s.dev c w words (s.getCache c)
  have last (x : Cache) : ∀ p ∈ words, words.Pairwise (fun p q => dataKey w p.1 ≠ dataKey w q.1) →
      (words.foldl (fun y p => y.putWord (dataKey w p.1) (injectData s.dev c p.2)) x).word (dataKey w p.1) = CacheWord.clean p.2 := by
    clear h1 h3 t
    induction words generalizing x with
    | nil => intro p hp; cases hp
    | cons q rest ih =>
      intro p hp hw
      obtain ⟨hq, hr⟩ := List.pairwise_cons.1 hw
      rcases List.mem_cons.1 hp with rfl | hp
      · refine ((foldl_putWord s.dev c w rest _).2.2 _ fun r hrm => hq r hrm).trans ?_
        simp [injectData, injectCache_off hi]
      · exact ih _ p hp hr
  have tagEq : ∀ k, (t.getCache c).tag k = if k = tagKey c w (cacheSet c a) then (t.getCache c).tag (tagKey c w (cacheSet c a))
      else (s.getCache c).tag k := by
    intro k
    simp only [t, fillWay, getCache_setCache, Cache.tag_touch, Cache.tag_putTag, if_true]
    split
    · rfl
    · simp [Cache.tag, h1]
  have tagNew : ∃ m old : Word, (m = old &&& 0x80000F00#32 ∨ m = 0) ∧ (t.getCache c).tag (tagKey c w (cacheSet c a)) =
      CacheWord.clean (m ||| ((a.extractLsb' 13 19).setWidth 32 <<< 12) ||| (1#32 <<< validBit c a)) := by
    let old := (s.getCache c).tag (tagKey c w (cacheSet c a))
    refine ⟨if old.val.extractLsb' 12 19 = a.extractLsb' 13 19 && !parityBad old then old.val &&& 0x80000F00#32 else 0, old.val,
      ?_, ?_⟩
    · split
      · exact .inl rfl
      · exact .inr rfl
    · simp only [t, fillWay, getCache_setCache, Cache.tag_touch, Cache.tag_putTag, if_true, injectTag, injectCache_off hi]
      rfl
  obtain ⟨m, old, hm, tagNew⟩ := tagNew
  refine ⟨?_, ⟨fun k hk => by rw [tagEq, if_neg hk], fun k hk => ?_⟩, ?_, fun b hb => ?_, ?_, fun p hp hw => ?_⟩
  · simp only [t, fillWay, getCache_setCache]
  · simp only [t, fillWay, getCache_setCache, Cache.word_touch, Cache.word_putTag]
    exact h3 k fun p hp => hk _ (List.mem_map_of_mem hp)
  · simp [badTag, tagNew]
  · obtain ⟨b1, b2, b3⟩ := hb
    have := fillTag_holds c a old m hm
    simp only [holdsWord, b1, b2, b3, tagNew, CacheWord.clean, this, decide_true, Bool.and_self]
  · simp only [t, fillWay, getCache_setCache]
    exact touch_usedLast _ _ _ _
  · simp only [t, fillWay, getCache_setCache, Cache.word_touch, Cache.word_putTag]
    exact last _ p hp hw

/-- After a parity error the word of way `w` and its tag have good parity, the word is the correct one, and nothing else changes but that
the way was used last; a good tag keeps its value (20_memory R254). -/
theorem mendWay_spec {s : State} {c : CacheId} (hi : s.dev.ccr1.extractLsb' 11 3 ≠ 0b011#3) (w : Nat) (a v : Word) :
    let t := mendWay s c w a v
    t = s.setCache c (t.getCache c) ∧ OtherLinesKept s t c a w [a] ∧ (t.getCache c).word (dataKey w a) = CacheWord.clean v ∧
      badTag t c a w = false ∧ UsedLast (t.getCache c) c a w ∧
      (badTag s c a w = false → (t.getCache c).tag (tagKey c w (cacheSet c a)) = (s.getCache c).tag (tagKey c w (cacheSet c a))) := by
  intro t
  have e : t = mendWay s c w a v := rfl
  unfold mendWay at e
  simp only [injectData, injectTag, injectCache_off hi] at e
  by_cases hb : parityBad ((s.getCache c).tag (tagKey c w (cacheSet c a))) = true
  · rw [if_pos (by simpa using hb)] at e
    rw [e]
    exact ⟨by simp, ⟨fun k hk => by simp [hk], fun k hk => by simp [hk a List.mem_cons_self]⟩, by simp, by simp [badTag],
      by simpa using touch_usedLast _ _ _ _, fun h => by simp [badTag, hb] at h⟩
  · rw [if_neg (by simpa using hb)] at e
    rw [e]
    exact ⟨by simp, ⟨fun k hk => by simp, fun k hk => by simp [hk a List.mem_cons_self]⟩, by simp, by simpa [badTag] using hb,
      by simpa using touch_usedLast _ _ _ _, fun _ => by simp⟩

/-- Way `w` of another set's tag is not the tag of this one. -/
theorem tagKey_inj {c : CacheId} {v w : Nat} {a b : Word} (h : tagKey c v (cacheSet c a) = tagKey c w (cacheSet c b)) :
    v = w ∧ cacheSet c a = cacheSet c b := by
  have hs (x : Word) : cacheSet c x < cacheSets c := by
    cases c
    · exact (x.extractLsb' 5 8).isLt
    · exact (x.extractLsb' 4 9).isLt
  have h1 := hs a
  have h2 := hs b
  unfold tagKey at h
  have hp : 0 < cacheSets c := by cases c <;> decide
  have e1 := congrArg (· / cacheSets c) h
  have e2 := congrArg (· % cacheSets c) h
  simp only [Nat.add_comm _ (cacheSet c _), Nat.add_mul_div_right _ _ hp, Nat.div_eq_of_lt h1, Nat.div_eq_of_lt h2, Nat.zero_add,
    Nat.add_mul_mod_self_right, Nat.mod_eq_of_lt h1, Nat.mod_eq_of_lt h2] at e1 e2
  exact ⟨e1, e2⟩

/-- After a fill of way `w` that no lower way comes before, a read of a word filled hits there (20_memory R246). -/
theorem fillWay_holds {s : State} {c : CacheId} (hi : s.dev.ccr1.extractLsb' 11 3 ≠ 0b011#3) {w : Nat} {a b v : Word}
    {words : List (Word × Word)} (hw : w < cacheWays c) (hlow : ∀ u < w, holdsWord c (s.getCache c) a u = false)
    (hu : SameUnit c a b) (hp : (b, v) ∈ words) (hd : words.Pairwise (fun p q => dataKey w p.1 ≠ dataKey w q.1)) :
    Holds (fillWay s c w a words) c b w v := by
  obtain ⟨-, ⟨h1, -⟩, -, h3, -, h5⟩ := fillWay_spec hi w a words
  refine ⟨hitWayBelow_eq_some.2 ⟨hw, h3 b hu, fun u hlt => ?_⟩, h5 _ hp hd⟩
  rw [holdsWord_congr (x := s.getCache c) (a := a) ?_ hu.1 hu.2.2]
  · exact hlow u hlt
  · rw [hu.2.1]
    exact h1 _ fun e => absurd (tagKey_inj e).1 (by omega)

/-- A miss fills some way of the set, which no way comes before (20_memory R246). -/
theorem allocate_spec {s : State} {c : CacheId} {a : Word} (words : List (Word × Word)) (h : hitWay c (s.getCache c) a = none) :
    ∃ w < cacheWays c, allocate s c a words = fillWay s c w a words ∧ ∀ u < w, holdsWord c (s.getCache c) a u = false := by
  have none_holds := hitWayBelow_eq_none.1 h
  unfold allocate
  simp only
  cases hf : findWay c (s.getCache c) a (cacheWays c) with
  | some w => exact ⟨w, findWay_lt hf, rfl, fun u hu => none_holds u (hu.trans (findWay_lt hf))⟩
  | none =>
    have := victim_lt c (s.getCache c) (cacheSet c a)
    exact ⟨_, this, rfl, fun u hu => none_holds u (hu.trans this)⟩

/-- An update of a whole word writes the copy a read would hit, and nothing else (20_memory R247, R248). -/
theorem updateCached_spec {s : State} {c : CacheId} (hi : s.dev.ccr1.extractLsb' 11 3 ≠ 0b011#3) {w : Nat} {a : Word}
    (h : hitWay c (s.getCache c) a = some w) (v : Word) :
    let t := updateCached s c a 4 0 v
    t = s.setCache c (t.getCache c) ∧ OtherLinesKept s t c a w [a] ∧ Holds t c a w v ∧ UsedLast (t.getCache c) c a w := by
  have e : updateCached s c a 4 0 v =
      s.setCache c (((s.getCache c).putWord (dataKey w a) (CacheWord.clean v)).touch (cacheSet c a) w) := by
    simp [updateCached, h, injectData, injectCache_off hi]
  rw [e]
  refine ⟨by simp, ⟨fun k _ => by simp, fun k hk => ?_⟩, ⟨?_, by simp⟩, ?_⟩
  · have := hk a List.mem_cons_self
    simp [this]
  · rw [hitWay, hitWayBelow_eq_some] at h ⊢
    rw [getCache_setCache]
    exact ⟨h.1, (holdsWord_congr rfl rfl rfl).trans h.2.1, fun u hu => (holdsWord_congr rfl rfl rfl).trans (h.2.2 u hu)⟩
  · rw [getCache_setCache]
    exact touch_usedLast _ _ _ _

/-! ### Two words of one line -/

/-- Two addresses of one line. -/
def SameLine (c : CacheId) (a b : Word) : Prop :=
  b.extractLsb' 13 19 = a.extractLsb' 13 19 ∧ cacheSet c b = cacheSet c a

/-- A fill of way `w` with a word of `a` leaves what the ways say of another word of the line, but that a way whose tag had wrong parity
loses it (20_memory R246, R254). -/
theorem holdsWord_fillWay {s : State} {c : CacheId} (hi : s.dev.ccr1.extractLsb' 11 3 ≠ 0b011#3) (w : Nat) (a : Word)
    (words : List (Word × Word)) {y : Word} (hl : SameLine c a y) (hv : validBit c y ≠ validBit c a) (u : Nat) :
    holdsWord c ((fillWay s c w a words).getCache c) y u = (holdsWord c (s.getCache c) y u && (decide (u ≠ w) || !badTag s c a w)) := by
  obtain ⟨l1, l2⟩ := hl
  by_cases huw : u = w
  · subst huw
    have tagNew : ((fillWay s c u a words).getCache c).tag (tagKey c u (cacheSet c a)) =
        CacheWord.clean ((if ((s.getCache c).tag (tagKey c u (cacheSet c a))).val.extractLsb' 12 19 = a.extractLsb' 13 19 &&
            !parityBad ((s.getCache c).tag (tagKey c u (cacheSet c a))) then
            ((s.getCache c).tag (tagKey c u (cacheSet c a))).val &&& 0x80000F00#32 else 0) |||
          ((a.extractLsb' 13 19).setWidth 32 <<< 12) ||| (1#32 <<< validBit c a)) := by
      simp only [fillWay, getCache_setCache, Cache.tag_touch, Cache.tag_putTag, if_true, injectTag, injectCache_off hi]
    have h1 : 8 ≤ validBit c a ∧ validBit c a < 12 := by cases c <;> simp only [validBit] <;> omega
    have h2 : 8 ≤ validBit c y ∧ validBit c y < 12 := by cases c <;> simp only [validBit] <;> omega
    have tag_kept := (fillTag_holds c a ((s.getCache c).tag (tagKey c u (cacheSet c a))).val _ (.inl rfl)).1
    simp only [holdsWord, l1, l2, tagNew, CacheWord.clean, badTag]
    generalize (s.getCache c).tag (tagKey c u (cacheSet c a)) = old at tag_kept ⊢
    generalize validBit c a = va at *
    generalize validBit c y = vy at *
    have z1 : ((a.extractLsb' 13 19).setWidth 32 <<< 12 : Word).getLsbD vy = false := by simp; omega
    have z2 : (1#32 <<< va).getLsbD vy = false := by
      obtain ⟨h1, h1'⟩ := h1; obtain ⟨h2, h2'⟩ := h2
      interval_cases va <;> interval_cases vy <;> first | rfl | omega
    have z3 : (0x80000F00#32).getLsbD vy = true := by
      obtain ⟨h2, h2'⟩ := h2
      interval_cases vy <;> rfl
    by_cases hm : old.val.extractLsb' 12 19 = a.extractLsb' 13 19 <;> cases parityBad old
    all_goals simp [hm, bit, z1, z2, z3]
    exact fun _ => tag_kept
  · obtain ⟨-, ⟨k1, -⟩, -⟩ := fillWay_spec hi w a words
    rw [holdsWord_congr (x := s.getCache c) (a := y) (k1 _ fun e => huw (tagKey_inj (a := y) (b := a) e).1) rfl rfl]
    simp [huw]

/-- So a word of the line that missed before still misses, and one that hit, in a way whose tag had good parity, still hits there. -/
theorem hitWay_fillWay {s : State} {c : CacheId} (hi : s.dev.ccr1.extractLsb' 11 3 ≠ 0b011#3) (w : Nat) (a : Word)
    (words : List (Word × Word)) {y : Word} (hl : SameLine c a y) (hv : validBit c y ≠ validBit c a) :
    (hitWay c (s.getCache c) y = none → hitWay c ((fillWay s c w a words).getCache c) y = none) ∧
      ∀ k, hitWay c (s.getCache c) y = some k → badTag s c y k = false →
        hitWay c ((fillWay s c w a words).getCache c) y = some k := by
  have H := holdsWord_fillWay hi w a words hl hv
  refine ⟨fun h => hitWayBelow_eq_none.2 fun u hu => ?_, fun k h hg => hitWayBelow_eq_some.2 ?_⟩
  · rw [H, hitWayBelow_eq_none.1 h u hu]; rfl
  · obtain ⟨h1, h2, h3⟩ := hitWayBelow_eq_some.1 h
    refine ⟨h1, ?_, fun v hv => by rw [H, h3 v hv]; rfl⟩
    rw [H, h2]
    by_cases e : k = w
    · subst e
      have : badTag s c a k = false := by unfold badTag at *; rw [← hl.2]; exact hg
      simp [this]
    · simp [e]

/-- The lowest way whose tag matches. -/
theorem findWay_eq_some {c : CacheId} {x : Cache} {a : Word} {n w : Nat} :
    findWay c x a n = some w ↔ w < n ∧ (x.tag (tagKey c w (cacheSet c a))).val.extractLsb' 12 19 = a.extractLsb' 13 19 ∧
      ∀ v < w, (x.tag (tagKey c v (cacheSet c a))).val.extractLsb' 12 19 ≠ a.extractLsb' 13 19 := by
  have key : ∀ n,
      (findWay c x a n = none ↔ ∀ v < n, (x.tag (tagKey c v (cacheSet c a))).val.extractLsb' 12 19 ≠ a.extractLsb' 13 19) ∧
      ∀ w, findWay c x a n = some w ↔ w < n ∧ (x.tag (tagKey c w (cacheSet c a))).val.extractLsb' 12 19 = a.extractLsb' 13 19 ∧
        ∀ v < w, (x.tag (tagKey c v (cacheSet c a))).val.extractLsb' 12 19 ≠ a.extractLsb' 13 19 := by
    intro n
    induction n with
    | zero => simp [findWay]
    | succ n ih =>
      obtain ⟨ih1, ih2⟩ := ih
      unfold findWay
      cases h : findWay c x a n with
      | some v =>
        obtain ⟨v1, v2, v3⟩ := (ih2 v).1 h
        refine ⟨by simpa using ⟨v, Nat.le_of_lt v1, v2⟩, fun w => ⟨fun e => ?_, fun ⟨w1, w2, w3⟩ => ?_⟩⟩
        · cases e; exact ⟨Nat.lt_succ_of_lt v1, v2, v3⟩
        · rcases Nat.lt_trichotomy v w with e | e | e
          · exact absurd v2 (w3 v e)
          · rw [e]
          · exact absurd w2 (v3 w e)
      | none =>
        have nb := ih1.1 h
        by_cases hn : (x.tag (tagKey c n (cacheSet c a))).val.extractLsb' 12 19 = a.extractLsb' 13 19
        · simp only [hn, if_true]
          refine ⟨by simpa using ⟨n, Nat.le_refl n, hn⟩, fun w => ⟨fun e => ?_, fun ⟨w1, w2, w3⟩ => ?_⟩⟩
          · cases e; exact ⟨Nat.lt_succ_self n, hn, nb⟩
          · rcases Nat.lt_succ_iff_lt_or_eq.1 w1 with e | e
            · exact absurd w2 (nb w e)
            · rw [e]
        · simp only [hn, if_false]
          refine ⟨by simpa using fun v hv => (Nat.lt_succ_iff_lt_or_eq.1 hv).elim (nb v) fun e => e ▸ hn, fun w => ?_⟩
          simp only [reduceCtorEq, false_iff]
          rintro ⟨w1, w2, -⟩
          rcases Nat.lt_succ_iff_lt_or_eq.1 w1 with e | e
          · exact nb w e w2
          · exact hn (e ▸ w2)
  exact (key n).2 w

theorem findWay_eq_none {c : CacheId} {x : Cache} {a : Word} {n : Nat} (h : findWay c x a n = none) :
    ∀ v < n, (x.tag (tagKey c v (cacheSet c a))).val.extractLsb' 12 19 ≠ a.extractLsb' 13 19 := by
  intro v hv e
  obtain ⟨u, hu⟩ : ∃ u, findWay c x a n = some u := by
    have : ∃ u, u ≤ v ∧ (x.tag (tagKey c u (cacheSet c a))).val.extractLsb' 12 19 = a.extractLsb' 13 19 ∧
        ∀ z < u, (x.tag (tagKey c z (cacheSet c a))).val.extractLsb' 12 19 ≠ a.extractLsb' 13 19 := by
      let P := fun u => (x.tag (tagKey c u (cacheSet c a))).val.extractLsb' 12 19 = a.extractLsb' 13 19
      have hP : ∃ u, P u := ⟨v, e⟩
      classical
      exact ⟨Nat.find hP, Nat.find_min' hP e, Nat.find_spec hP, fun z hz => Nat.find_min hP hz⟩
    obtain ⟨u, u1, u2, u3⟩ := this
    exact ⟨u, findWay_eq_some.2 ⟨by omega, u2, u3⟩⟩
  rw [h] at hu; cases hu

/-- After a miss has filled a way, a miss of another word of the line fills the same way (20_memory R246). -/
theorem allocate_again {s : State} {c : CacheId} (hi : s.dev.ccr1.extractLsb' 11 3 ≠ 0b011#3) {a y : Word} (l1 l2 : List (Word × Word))
    (h : hitWay c (s.getCache c) a = none) (hl : SameLine c a y) :
    ∃ w < cacheWays c, allocate s c a l1 = fillWay s c w a l1 ∧ (∀ u < w, holdsWord c (s.getCache c) a u = false) ∧
      allocate (fillWay s c w a l1) c y l2 = fillWay (fillWay s c w a l1) c w y l2 := by
  have again (w : Nat) (hw : w < cacheWays c)
      (hlow : ∀ v < w, ((s.getCache c).tag (tagKey c v (cacheSet c a))).val.extractLsb' 12 19 ≠ a.extractLsb' 13 19) :
      allocate (fillWay s c w a l1) c y l2 = fillWay (fillWay s c w a l1) c w y l2 := by
    obtain ⟨-, ⟨k1, -⟩, -, k3, -⟩ := fillWay_spec hi w a l1
    have hh := k3 a ⟨rfl, rfl, rfl⟩
    have : findWay c ((fillWay s c w a l1).getCache c) y (cacheWays c) = some w := by
      refine findWay_eq_some.2 ⟨hw, ?_, fun v hv => ?_⟩
      · rw [hl.1, hl.2]
        simp only [holdsWord, Bool.and_eq_true, decide_eq_true_eq] at hh
        exact hh.1
      · rw [hl.1, hl.2, k1 _ fun e => absurd (tagKey_inj (a := a) (b := a) e).1 (by omega)]
        exact hlow v hv
    unfold allocate
    simp only [this]
  have none_holds := hitWayBelow_eq_none.1 h
  cases hf : findWay c (s.getCache c) a (cacheWays c) with
  | some w =>
    obtain ⟨f1, f2, f3⟩ := findWay_eq_some.1 hf
    exact ⟨w, f1, by simp [allocate, hf], fun u hu => none_holds u (hu.trans f1), again w f1 f3⟩
  | none =>
    have hv := victim_lt c (s.getCache c) (cacheSet c a)
    exact ⟨_, hv, by simp [allocate, hf], fun u hu => none_holds u (hu.trans hv),
      again _ hv fun v hvv => findWay_eq_none hf v (hvv.trans hv)⟩

/-- An update of any width writes the copy a read would hit, and no tag (20_memory R247): its bytes are `mergeBytes` of the old ones. -/
theorem updateCached_part {s : State} {c : CacheId} (hi : s.dev.ccr1.extractLsb' 11 3 ≠ 0b011#3) {w : Nat} {a : Word}
    (h : hitWay c (s.getCache c) a = some w) (n o : Nat) (v : Word) :
    let t := updateCached s c a n o v
    let old := (s.getCache c).word (dataKey w a)
    let new := (t.getCache c).word (dataKey w a)
    t = s.setCache c (t.getCache c) ∧ OtherLinesKept s t c a w [a] ∧ (∀ i, (t.getCache c).tag i = (s.getCache c).tag i) ∧
      (∀ y, hitWay c (t.getCache c) y = hitWay c (s.getCache c) y) ∧ UsedLast (t.getCache c) c a w ∧
      new.val = mergeBytes old.val n o v ∧ (n = 4 ∨ old = CacheWord.clean old.val → new = CacheWord.clean new.val) := by
  have e : ∃ x, updateCached s c a n o v = s.setCache c (((s.getCache c).putWord (dataKey w a) x).touch (cacheSet c a) w) ∧
      x.val = mergeBytes ((s.getCache c).word (dataKey w a)).val n o v ∧
      (n = 4 ∨ (s.getCache c).word (dataKey w a) = CacheWord.clean ((s.getCache c).word (dataKey w a)).val →
        x = CacheWord.clean x.val) := by
    refine ⟨_, by simp only [updateCached, h]; rfl, ?_, ?_⟩
    · split
      · next e => simp [injectData, injectCache_off hi, e, mergeBytes, CacheWord.clean]
      · rfl
    · intro hc
      split
      · simp [injectData, injectCache_off hi, CacheWord.clean]
      · next e =>
        have := hc.resolve_left e
        rw [this]; simp [CacheWord.clean]
  obtain ⟨x, e, ex, ec⟩ := e
  intro t old new
  simp only [t, new, e, getCache_setCache]
  refine ⟨trivial, ⟨fun k _ => by simp, fun k hk => ?_⟩, fun i => by simp, fun _ => hitWay_tags (by rfl) _, touch_usedLast _ _ _ _,
    by simpa using ex, by simpa using ec⟩
  have := hk a List.mem_cons_self
  simp [this]

/-- The bytes of a merged word: those stored, and the old ones beside them. -/
theorem mergeBytes_bytes {n o : Nat} (h : LaneOk n o) (d v : Word) (j : Nat) (hj : j < 4) :
    byteOf (mergeBytes d n o v) j =
      if h' : o ≤ j ∧ j < o + (storeBytes n v).length then (storeBytes n v)[j - o] else byteOf d j := by
  have key : byteOf (mergeBytes d n o v) j =
      if h' : o ≤ j ∧ j < o + n then (storeBytes n v)[j - o]'(by rw [storeBytes_length h]; omega) else byteOf d j := by
    unfold byteOf
    rcases h with ⟨rfl, ho⟩ | ⟨rfl, ho⟩ | ⟨rfl, rfl⟩
    · rw [mergeBytes_byte1 _ _ _ _ ho hj]
      by_cases e : j = o
      · subst e; simp [storeBytes]
      · rw [if_neg e, dif_neg (by omega)]
    · rw [mergeBytes_byte2 _ _ _ _ ho hj]
      by_cases e : j = o
      · subst e; simp [storeBytes]
      · rw [if_neg e]
        by_cases e2 : j = o + 1
        · subst e2
          rw [if_pos rfl, dif_pos (by omega)]
          simp [storeBytes]
        · rw [if_neg e2, dif_neg (by omega)]
    · rw [dif_pos (by omega), mergeBytes, if_pos rfl]
      interval_cases j <;> simp [storeBytes, bytesOfWord]
  rw [key]
  have l := storeBytes_length h v
  by_cases e : o ≤ j ∧ j < o + n
  · rw [dif_pos e, dif_pos (by rw [l]; exact e)]
  · rw [dif_neg e, dif_neg (by rw [l]; exact e)]

/-- After a store has changed memory to `t`, the update puts the bytes stored into the copy held, if any (20_memory R247). -/
theorem updateCached_updatesCopy {s t : State} {b : Word} {n o : Nat} (hl : LaneOk n o) (v : Word)
    (hi : s.dev.ccr1.extractLsb' 11 3 ≠ 0b011#3) (ht : t = { s with mem := t.mem, memFlip := t.memFlip }) :
    let u := updateCached t .dcache b n o v
    UpdatesCopy s u b o (storeBytes n v) ∧ u = { t with dcache := u.dcache } := by
  have tc : t.dcache = s.dcache := by rw [ht]
  have tinj : t.dev.ccr1.extractLsb' 11 3 ≠ 0b011#3 := by rw [ht]; exact hi
  refine ⟨⟨fun h => ?_, fun w hw => ?_⟩, by simp only [updateCached]; split <;> rfl⟩
  · unfold updateCached; simp only [State.getCache, tc, h]
  · have hw' : hitWay .dcache (t.getCache .dcache) b = some w := by show hitWay _ t.dcache _ = _; rw [tc]; exact hw
    obtain ⟨-, u2, u3, u4, u5, u6, u7⟩ := updateCached_part (s := t) (c := .dcache) tinj hw' n o v
    simp only [State.getCache, tc] at u2 u3 u4 u5 u6 u7
    refine ⟨(u4 b).trans hw, ?_, u3, u5, fun j hj => ?_, fun h => u7 ?_⟩
    · unfold OtherLinesKept at u2 ⊢; simp only [State.getCache, tc] at u2 ⊢; exact u2
    · rw [u6]; exact mergeBytes_bytes hl _ _ j hj
    · exact h.imp_left fun e => (storeBytes_length hl v).symm.trans e

/-! ### Accesses of the IU with a cache on -/

/-- A read transfer of a word of such RAM gives what memory holds and changes nothing (20_memory R206, R214). -/
theorem busRead_cached {s : State} {a : Word} (h : CachedRam s a) (h4 : a.toNat % 4 = 0) (m : Master) (f : Bool) :
    busRead s m f a .word = .ok (s.wordAt a.toNat) s := by
  have hwb : wordBase a = a := BitVec.eq_of_toNat_eq (by rw [wordBase_toNat]; omega)
  rw [busRead_readable ⟨h.1, h.2.1, h.2.2.1, h.2.2.2.1, h.2.2.2.2.1, h.2.2.2.2.2.2⟩, hwb]
  rfl

/-- One counted parity error, below the maximum of its counter (20_memory R256). -/
theorem countParity_spec {s : State} {c : CacheId} {tag : Bool} (h : counterBelowMax c tag s.dev.ccr3) :
    (if tag then countTagError s c else countDataError s c) =
      { s with dev := { s.dev with ccr3 := countedError c tag s.dev.ccr3 } } := by
  have key (lo width : Nat) (h : (s.dev.ccr3 >>> lo) &&& ((1#32 <<< width) - 1) ≠ (1#32 <<< width) - 1) :
      countParity s lo width = { s with dev := { s.dev with ccr3 := s.dev.ccr3 + (1#32 <<< lo) } } := by
    unfold countParity; simp only; rw [if_neg h]
  have field (x : Word) (lo : Nat) (w : Nat) (hw : w = 6 ∨ w = 10) (h : (x >>> lo) &&& ((1#32 <<< w) - 1) = (1#32 <<< w) - 1) :
      x.extractLsb' lo w = BitVec.allOnes w := by
    ext i hi
    have := congrArg (fun y => y.getLsbD i) h
    have hone : ((1#32 <<< w) - 1).getLsbD i = true := by rcases hw with rfl | rfl <;> interval_cases i <;> rfl
    simp only [BitVec.getLsbD_and, BitVec.getLsbD_ushiftRight, hone, Bool.and_true] at this
    simpa using this
  cases c <;> cases tag
  all_goals
    refine key _ _ fun e => h ?_
    exact (field _ _ _ (by decide) e).trans (by decide)

/-- What a word read of the IU gives where a lookup hits, errs, or misses (20_memory R246, R254, R256). -/
theorem cacheLookup_cases {s : State} {c : CacheId} {a : Word} :
    (∀ w, hitWay c (s.getCache c) a = some w → badTag s c a w = false → badWord s c a w = false →
      cacheLookup s c a = .hit ((s.getCache c).word (dataKey w a)).val (s.setCache c ((s.getCache c).touch (cacheSet c a) w))) ∧
    (∀ w, hitWay c (s.getCache c) a = some w → badTag s c a w = true ∨ badWord s c a w = true →
      counterBelowMax c (badTag s c a w) s.dev.ccr3 →
      cacheLookup s c a = .refill w { s with dev := { s.dev with ccr3 := countedError c (badTag s c a w) s.dev.ccr3 } }) ∧
    (hitWay c (s.getCache c) a = none → cacheLookup s c a = .miss) := by
  refine ⟨fun w h h1 h2 => ?_, fun w h h1 h2 => ?_, fun h => ?_⟩
  · unfold badTag at h1; unfold badWord at h2
    simp [cacheLookup, h, h1, h2]
  · rw [← countParity_spec h2]
    unfold badTag badWord at *
    cases ht : parityBad ((s.getCache c).tag (tagKey c w (cacheSet c a)))
    · simp only [ht, Bool.false_eq_true, false_or] at h1
      simp [cacheLookup, h, ht, h1]
    · simp [cacheLookup, h, ht]
  · simp [cacheLookup, h]

theorem CachedRam.readable {s : State} {a : Word} (h : CachedRam s a) : ReadableRam s a :=
  ⟨h.1, h.2.1, h.2.2.1, h.2.2.2.1, h.2.2.2.2.1, h.2.2.2.2.2.2⟩

theorem cacheOn_dcache {d : Dev} (h : d.ccr.getLsbD 2 = true) : cacheOn d .dcache = true := by
  simp [cacheOn, Config.modelCaches, cacheField, h]

theorem cacheEnabled_dcache {d : Dev} (h : d.ccr.getLsbD 2 = true) : cacheEnabled d .dcache = d.ccr.getLsbD 3 := by
  have field : cacheField d .dcache = 3 ↔ d.ccr.getLsbD 3 = true := by
    show d.ccr.extractLsb' 2 2 = 3 ↔ _
    refine ⟨fun e => by simpa using congrArg (·.getLsbD 1) e, fun e => ?_⟩
    ext i hi
    have key : d.ccr.getLsbD (2 + i) = true := by interval_cases i <;> assumption
    rw [BitVec.getElem_extractLsb', key]
    interval_cases i <;> simp
  rw [Bool.eq_iff_iff, ← field]
  simp [cacheEnabled, Config.modelCaches]

/-- The state after a normal read of the word at `b` without wrong parity: the way hit was used last, or the line is filled, or nothing
changes (20_memory R242, R246). -/
def afterRead (s : State) (b : Word) : State :=
  match hitWay .dcache s.dcache b with
  | some w => s.setCache .dcache ((s.getCache .dcache).touch (cacheSet .dcache b) w)
  | none => if s.dev.ccr.getLsbD 3 then allocate s .dcache b [(b, s.wordAt b.toNat)] else s

/-- What a normal read of such a word gives. -/
theorem cachedReadWord_normal {s : State} {b : Word} (h4 : b.toNat % 4 = 0) (hc : CachedRam s b) (hon : s.dev.ccr.getLsbD 2 = true)
    (hg : GoodIfHeld s b) : cachedReadWord s .normal b = .ok (cachedWord s b) (afterRead s b) := by
  have hwb : wordBase b = b := BitVec.eq_of_toNat_eq (by rw [wordBase_toNat]; omega)
  obtain ⟨L1, -, L3⟩ := cacheLookup_cases (s := s) (c := .dcache) (a := b)
  have hbus := busRead_cached hc h4 .iu false
  cases hh : hitWay .dcache s.dcache b with
  | some w => simp only [cachedReadWord, hwb, L1 w hh (hg w hh).1 (hg w hh).2, cachedWord, afterRead, hh]; rfl
  | none => simp only [cachedReadWord, hwb, L3 hh, hbus, cacheEnabled_dcache hon, cachedWord, afterRead, hh]

/-- A write of such RAM with the data cache on is its transfer, then the update of a copy held (20_memory R206, R247). -/
theorem dataWrite_cached {s : State} {a : Word} (hc : CachedRam s a) (hon : s.dev.ccr.getLsbD 2 = true)
    (hw : writeProtected s.dev a = false) (he : ewbOn s.dev = false) {sz : Size} (hl : LaneOk sz.bytes (a.toNat % 4)) (v : Word) :
    ∃ t, dataWrite s a sz v = .ok () (updateCached t .dcache (wordBase a) sz.bytes (a.toNat % 4) v) ∧
      StoresBytes s t a (storeBytes sz.bytes v) ∧ t = { s with mem := t.mem, memFlip := t.memFlip } ∧
      (∀ x, x / 4 ≠ a.toNat / 4 → t.flipAt x = s.flipAt x) ∧
      ∀ b, ramBank s.dev a = some b → b.en = true → t.flipAt a.toNat = 0 := by
  obtain ⟨t, h1, h2, h3, h4, h5⟩ := areaWrite_readable hc.readable hw he hl v
  have hd : DsuIdle t a := by rw [h3]; exact hc.2.2.2.2.2.2
  have hon' : cacheOn t.dev .dcache = true := by rw [h3]; exact cacheOn_dcache hon
  refine ⟨t, ?_, h2, h3, h4, h5⟩
  unfold dataWrite busWrite
  rw [h1]
  simp only [if_true, dsuSeesBus_idle hd]
  simp [cacheable, show areaOf a = .ram from hc.1, hon']

end Sys2Proof.Machine
end

