-- ==== Sys2Proof/Laws/Encode.lean ====
section
/-! SUPPORT. Every field of an encoded word reads back as it was written (30_encoding R301, R302). -/

namespace Sys2Proof

theorem extract_append_hi {m n : Nat} (x : BitVec m) (y : BitVec n) (s l : Nat) (h : n ≤ s) :
    (x ++ y).extractLsb' s l = x.extractLsb' (s - n) l := by
  ext i hi
  simp only [BitVec.getElem_extractLsb', BitVec.getLsbD_append]
  rw [if_neg (by omega)]
  congr 1; omega

theorem extract_append_lo {m n : Nat} (x : BitVec m) (y : BitVec n) (s l : Nat) (h : s + l ≤ n) :
    (x ++ y).extractLsb' s l = y.extractLsb' s l := by
  ext i hi
  simp only [BitVec.getElem_extractLsb', BitVec.getLsbD_append]
  rw [if_pos (by omega)]

theorem extract_all {n : Nat} (x : BitVec n) : x.extractLsb' 0 n = x := by
  ext i hi
  simp

theorem bit_extract {n : Nat} (x : BitVec n) (k : Nat) : x.getLsbD k = (x.extractLsb' k 1).getLsbD 0 := by simp

@[simp] theorem opField_fmt1 (d : BitVec 30) : opField (fmt1 d) = 1#2 :=
  ((extract_append_hi _ d 30 2 (by decide)).trans (extract_all _))
@[simp] theorem disp30_fmt1 (d : BitVec 30) : disp30 (fmt1 d) = d :=
  ((extract_append_lo _ d 0 30 (by decide)).trans (extract_all _))

@[simp] theorem opField_fmt2 (r : RegNum) (o : BitVec 3) (c : BitVec 22) : opField (fmt2 r o c) = 0#2 :=
  ((extract_append_hi _ c 30 2 (by decide)).trans ((extract_append_hi _ o 8 2 (by decide)).trans ((extract_append_hi _ r 5 2 (by decide)).trans (extract_all _))))
@[simp] theorem rd_fmt2 (r : RegNum) (o : BitVec 3) (c : BitVec 22) : rd (fmt2 r o c) = r :=
  ((extract_append_hi _ c 25 5 (by decide)).trans ((extract_append_hi _ o 3 5 (by decide)).trans ((extract_append_lo _ r 0 5 (by decide)).trans (extract_all _))))
@[simp] theorem op2Field_fmt2 (r : RegNum) (o : BitVec 3) (c : BitVec 22) : op2Field (fmt2 r o c) = o :=
  ((extract_append_hi _ c 22 3 (by decide)).trans ((extract_append_lo _ o 0 3 (by decide)).trans (extract_all _)))
@[simp] theorem imm22_fmt2 (r : RegNum) (o : BitVec 3) (c : BitVec 22) : imm22 (fmt2 r o c) = c :=
  ((extract_append_lo _ c 0 22 (by decide)).trans (extract_all _))

@[simp] theorem opField_fmt2b (a : Bool) (k : BitVec 4) (o : BitVec 3) (d : BitVec 22) : opField (fmt2b a k o d) = 0#2 :=
  ((extract_append_hi _ d 30 2 (by decide)).trans ((extract_append_hi _ o 8 2 (by decide)).trans ((extract_append_hi _ k 5 2 (by decide)).trans ((extract_append_hi _ (BitVec.ofBool a) 1 2 (by decide)).trans (extract_all _)))))
@[simp] theorem condField_fmt2b (a : Bool) (k : BitVec 4) (o : BitVec 3) (d : BitVec 22) : condField (fmt2b a k o d) = k :=
  ((extract_append_hi _ d 25 4 (by decide)).trans ((extract_append_hi _ o 3 4 (by decide)).trans ((extract_append_lo _ k 0 4 (by decide)).trans (extract_all _))))
@[simp] theorem op2Field_fmt2b (a : Bool) (k : BitVec 4) (o : BitVec 3) (d : BitVec 22) : op2Field (fmt2b a k o d) = o :=
  ((extract_append_hi _ d 22 3 (by decide)).trans ((extract_append_lo _ o 0 3 (by decide)).trans (extract_all _)))
@[simp] theorem imm22_fmt2b (a : Bool) (k : BitVec 4) (o : BitVec 3) (d : BitVec 22) : imm22 (fmt2b a k o d) = d :=
  ((extract_append_lo _ d 0 22 (by decide)).trans (extract_all _))
@[simp] theorem aBit_fmt2b (a : Bool) (k : BitVec 4) (o : BitVec 3) (d : BitVec 22) : aBit (fmt2b a k o d) = a :=
  (bit_extract _ 29).trans ((congrArg (fun x => x.getLsbD 0) ((extract_append_hi _ d 29 1 (by decide)).trans ((extract_append_hi _ o 7 1 (by decide)).trans ((extract_append_hi _ k 4 1 (by decide)).trans ((extract_append_lo _ (BitVec.ofBool a) 0 1 (by decide)).trans (extract_all _)))))).trans (by simp))

@[simp] theorem opField_fmt3r (o : BitVec 2) (r : RegNum) (o3 : BitVec 6) (r1 : RegNum) (asi : BitVec 8) (r2 : RegNum) : opField (fmt3r o r o3 r1 asi r2) = o :=
  ((extract_append_hi _ r2 30 2 (by decide)).trans ((extract_append_hi _ asi 25 2 (by decide)).trans ((extract_append_hi _ 0#1 17 2 (by decide)).trans ((extract_append_hi _ r1 16 2 (by decide)).trans ((extract_append_hi _ o3 11 2 (by decide)).trans ((extract_append_hi _ r 5 2 (by decide)).trans (extract_all _)))))))
@[simp] theorem rd_fmt3r (o : BitVec 2) (r : RegNum) (o3 : BitVec 6) (r1 : RegNum) (asi : BitVec 8) (r2 : RegNum) : rd (fmt3r o r o3 r1 asi r2) = r :=
  ((extract_append_hi _ r2 25 5 (by decide)).trans ((extract_append_hi _ asi 20 5 (by decide)).trans ((extract_append_hi _ 0#1 12 5 (by decide)).trans ((extract_append_hi _ r1 11 5 (by decide)).trans ((extract_append_hi _ o3 6 5 (by decide)).trans ((extract_append_lo _ r 0 5 (by decide)).trans (extract_all _)))))))
@[simp] theorem condField_fmt3r (o : BitVec 2) (r : RegNum) (o3 : BitVec 6) (r1 : RegNum) (asi : BitVec 8) (r2 : RegNum) : condField (fmt3r o r o3 r1 asi r2) = r.extractLsb' 0 4 :=
  ((extract_append_hi _ r2 25 4 (by decide)).trans ((extract_append_hi _ asi 20 4 (by decide)).trans ((extract_append_hi _ 0#1 12 4 (by decide)).trans ((extract_append_hi _ r1 11 4 (by decide)).trans ((extract_append_hi _ o3 6 4 (by decide)).trans (extract_append_lo _ r 0 4 (by decide)))))))
@[simp] theorem op3Field_fmt3r (o : BitVec 2) (r : RegNum) (o3 : BitVec 6) (r1 : RegNum) (asi : BitVec 8) (r2 : RegNum) : op3Field (fmt3r o r o3 r1 asi r2) = o3 :=
  ((extract_append_hi _ r2 19 6 (by decide)).trans ((extract_append_hi _ asi 14 6 (by decide)).trans ((extract_append_hi _ 0#1 6 6 (by decide)).trans ((extract_append_hi _ r1 5 6 (by decide)).trans ((extract_append_lo _ o3 0 6 (by decide)).trans (extract_all _))))))
@[simp] theorem rs1_fmt3r (o : BitVec 2) (r : RegNum) (o3 : BitVec 6) (r1 : RegNum) (asi : BitVec 8) (r2 : RegNum) : rs1 (fmt3r o r o3 r1 asi r2) = r1 :=
  ((extract_append_hi _ r2 14 5 (by decide)).trans ((extract_append_hi _ asi 9 5 (by decide)).trans ((extract_append_hi _ 0#1 1 5 (by decide)).trans ((extract_append_lo _ r1 0 5 (by decide)).trans (extract_all _)))))
@[simp] theorem asiField_fmt3r (o : BitVec 2) (r : RegNum) (o3 : BitVec 6) (r1 : RegNum) (asi : BitVec 8) (r2 : RegNum) : asiField (fmt3r o r o3 r1 asi r2) = asi :=
  ((extract_append_hi _ r2 5 8 (by decide)).trans ((extract_append_lo _ asi 0 8 (by decide)).trans (extract_all _)))
@[simp] theorem rs2_fmt3r (o : BitVec 2) (r : RegNum) (o3 : BitVec 6) (r1 : RegNum) (asi : BitVec 8) (r2 : RegNum) : rs2 (fmt3r o r o3 r1 asi r2) = r2 :=
  ((extract_append_lo _ r2 0 5 (by decide)).trans (extract_all _))
@[simp] theorem iBit_fmt3r (o : BitVec 2) (r : RegNum) (o3 : BitVec 6) (r1 : RegNum) (asi : BitVec 8) (r2 : RegNum) : iBit (fmt3r o r o3 r1 asi r2) = false :=
  (bit_extract _ 13).trans ((congrArg (fun x => x.getLsbD 0) ((extract_append_hi _ r2 13 1 (by decide)).trans ((extract_append_hi _ asi 8 1 (by decide)).trans ((extract_append_lo _ 0#1 0 1 (by decide)).trans (extract_all _))))).trans (by simp))

@[simp] theorem opField_fmt3i (o : BitVec 2) (r : RegNum) (o3 : BitVec 6) (r1 : RegNum) (c : BitVec 13) : opField (fmt3i o r o3 r1 c) = o :=
  ((extract_append_hi _ c 30 2 (by decide)).trans ((extract_append_hi _ 1#1 17 2 (by decide)).trans ((extract_append_hi _ r1 16 2 (by decide)).trans ((extract_append_hi _ o3 11 2 (by decide)).trans ((extract_append_hi _ r 5 2 (by decide)).trans (extract_all _))))))
@[simp] theorem rd_fmt3i (o : BitVec 2) (r : RegNum) (o3 : BitVec 6) (r1 : RegNum) (c : BitVec 13) : rd (fmt3i o r o3 r1 c) = r :=
  ((extract_append_hi _ c 25 5 (by decide)).trans ((extract_append_hi _ 1#1 12 5 (by decide)).trans ((extract_append_hi _ r1 11 5 (by decide)).trans ((extract_append_hi _ o3 6 5 (by decide)).trans ((extract_append_lo _ r 0 5 (by decide)).trans (extract_all _))))))
@[simp] theorem condField_fmt3i (o : BitVec 2) (r : RegNum) (o3 : BitVec 6) (r1 : RegNum) (c : BitVec 13) : condField (fmt3i o r o3 r1 c) = r.extractLsb' 0 4 :=
  ((extract_append_hi _ c 25 4 (by decide)).trans ((extract_append_hi _ 1#1 12 4 (by decide)).trans ((extract_append_hi _ r1 11 4 (by decide)).trans ((extract_append_hi _ o3 6 4 (by decide)).trans (extract_append_lo _ r 0 4 (by decide))))))
@[simp] theorem op3Field_fmt3i (o : BitVec 2) (r : RegNum) (o3 : BitVec 6) (r1 : RegNum) (c : BitVec 13) : op3Field (fmt3i o r o3 r1 c) = o3 :=
  ((extract_append_hi _ c 19 6 (by decide)).trans ((extract_append_hi _ 1#1 6 6 (by decide)).trans ((extract_append_hi _ r1 5 6 (by decide)).trans ((extract_append_lo _ o3 0 6 (by decide)).trans (extract_all _)))))
@[simp] theorem rs1_fmt3i (o : BitVec 2) (r : RegNum) (o3 : BitVec 6) (r1 : RegNum) (c : BitVec 13) : rs1 (fmt3i o r o3 r1 c) = r1 :=
  ((extract_append_hi _ c 14 5 (by decide)).trans ((extract_append_hi _ 1#1 1 5 (by decide)).trans ((extract_append_lo _ r1 0 5 (by decide)).trans (extract_all _))))
@[simp] theorem simm13_fmt3i (o : BitVec 2) (r : RegNum) (o3 : BitVec 6) (r1 : RegNum) (c : BitVec 13) : simm13 (fmt3i o r o3 r1 c) = c :=
  ((extract_append_lo _ c 0 13 (by decide)).trans (extract_all _))
@[simp] theorem rs2_fmt3i (o : BitVec 2) (r : RegNum) (o3 : BitVec 6) (r1 : RegNum) (c : BitVec 13) : rs2 (fmt3i o r o3 r1 c) = c.extractLsb' 0 5 :=
  (extract_append_lo _ c 0 5 (by decide))
@[simp] theorem imm7_fmt3i (o : BitVec 2) (r : RegNum) (o3 : BitVec 6) (r1 : RegNum) (c : BitVec 13) : imm7 (fmt3i o r o3 r1 c) = c.extractLsb' 0 7 :=
  (extract_append_lo _ c 0 7 (by decide))
@[simp] theorem iBit_fmt3i (o : BitVec 2) (r : RegNum) (o3 : BitVec 6) (r1 : RegNum) (c : BitVec 13) : iBit (fmt3i o r o3 r1 c) = true :=
  (bit_extract _ 13).trans ((congrArg (fun x => x.getLsbD 0) ((extract_append_hi _ c 13 1 (by decide)).trans ((extract_append_lo _ 1#1 0 1 (by decide)).trans (extract_all _)))).trans (by simp))

@[simp] theorem opField_fmt3f (r : RegNum) (o3 : BitVec 6) (r1 : RegNum) (f : BitVec 9) (r2 : RegNum) : opField (fmt3f r o3 r1 f r2) = 2#2 :=
  ((extract_append_hi _ r2 30 2 (by decide)).trans ((extract_append_hi _ f 25 2 (by decide)).trans ((extract_append_hi _ r1 16 2 (by decide)).trans ((extract_append_hi _ o3 11 2 (by decide)).trans ((extract_append_hi _ r 5 2 (by decide)).trans (extract_all _))))))
@[simp] theorem rd_fmt3f (r : RegNum) (o3 : BitVec 6) (r1 : RegNum) (f : BitVec 9) (r2 : RegNum) : rd (fmt3f r o3 r1 f r2) = r :=
  ((extract_append_hi _ r2 25 5 (by decide)).trans ((extract_append_hi _ f 20 5 (by decide)).trans ((extract_append_hi _ r1 11 5 (by decide)).trans ((extract_append_hi _ o3 6 5 (by decide)).trans ((extract_append_lo _ r 0 5 (by decide)).trans (extract_all _))))))
@[simp] theorem op3Field_fmt3f (r : RegNum) (o3 : BitVec 6) (r1 : RegNum) (f : BitVec 9) (r2 : RegNum) : op3Field (fmt3f r o3 r1 f r2) = o3 :=
  ((extract_append_hi _ r2 19 6 (by decide)).trans ((extract_append_hi _ f 14 6 (by decide)).trans ((extract_append_hi _ r1 5 6 (by decide)).trans ((extract_append_lo _ o3 0 6 (by decide)).trans (extract_all _)))))
@[simp] theorem rs1_fmt3f (r : RegNum) (o3 : BitVec 6) (r1 : RegNum) (f : BitVec 9) (r2 : RegNum) : rs1 (fmt3f r o3 r1 f r2) = r1 :=
  ((extract_append_hi _ r2 14 5 (by decide)).trans ((extract_append_hi _ f 9 5 (by decide)).trans ((extract_append_lo _ r1 0 5 (by decide)).trans (extract_all _))))
@[simp] theorem opf_fmt3f (r : RegNum) (o3 : BitVec 6) (r1 : RegNum) (f : BitVec 9) (r2 : RegNum) : opf (fmt3f r o3 r1 f r2) = f :=
  ((extract_append_hi _ r2 5 9 (by decide)).trans ((extract_append_lo _ f 0 9 (by decide)).trans (extract_all _)))
@[simp] theorem rs2_fmt3f (r : RegNum) (o3 : BitVec 6) (r1 : RegNum) (f : BitVec 9) (r2 : RegNum) : rs2 (fmt3f r o3 r1 f r2) = r2 :=
  ((extract_append_lo _ r2 0 5 (by decide)).trans (extract_all _))

@[simp] theorem extract_count (x : BitVec 5) : (0#8 ++ x).extractLsb' 0 5 = x :=
  (extract_append_lo _ x 0 5 (by decide)).trans (extract_all _)
@[simp] theorem extract_cond (x : BitVec 4) : (0#1 ++ x).extractLsb' 0 4 = x :=
  (extract_append_lo _ x 0 4 (by decide)).trans (extract_all _)
@[simp] theorem extract_imm7 (x : BitVec 7) : (0#6 ++ x).extractLsb' 0 7 = x :=
  (extract_append_lo _ x 0 7 (by decide)).trans (extract_all _)

/-! The operand forms read back. -/

@[simp] theorem opField_encRegImm (o : BitVec 2) (r : RegNum) (o3 : BitVec 6) (r1 : RegNum) (x : RegImm) : opField (encRegImm o r o3 r1 x) = o := by
  cases x <;> simp [encRegImm]
@[simp] theorem op3Field_encRegImm (o : BitVec 2) (r : RegNum) (o3 : BitVec 6) (r1 : RegNum) (x : RegImm) : op3Field (encRegImm o r o3 r1 x) = o3 := by
  cases x <;> simp [encRegImm]
@[simp] theorem rs1_encRegImm (o : BitVec 2) (r : RegNum) (o3 : BitVec 6) (r1 : RegNum) (x : RegImm) : rs1 (encRegImm o r o3 r1 x) = r1 := by
  cases x <;> simp [encRegImm]
@[simp] theorem rd_encRegImm (o : BitVec 2) (r : RegNum) (o3 : BitVec 6) (r1 : RegNum) (x : RegImm) : rd (encRegImm o r o3 r1 x) = r := by
  cases x <;> simp [encRegImm]
@[simp] theorem regImm_encRegImm (o : BitVec 2) (r : RegNum) (o3 : BitVec 6) (r1 : RegNum) (x : RegImm) : regImm (encRegImm o r o3 r1 x) = x := by
  cases x <;> simp [encRegImm, regImm]

@[simp] theorem opField_encShift (r : RegNum) (o3 : BitVec 6) (r1 : RegNum) (x : ShiftArg) : opField (encShift r o3 r1 x) = 2 := by
  cases x <;> simp [encShift]
@[simp] theorem op3Field_encShift (r : RegNum) (o3 : BitVec 6) (r1 : RegNum) (x : ShiftArg) : op3Field (encShift r o3 r1 x) = o3 := by
  cases x <;> simp [encShift]
@[simp] theorem rs1_encShift (r : RegNum) (o3 : BitVec 6) (r1 : RegNum) (x : ShiftArg) : rs1 (encShift r o3 r1 x) = r1 := by
  cases x <;> simp [encShift]
@[simp] theorem rd_encShift (r : RegNum) (o3 : BitVec 6) (r1 : RegNum) (x : ShiftArg) : rd (encShift r o3 r1 x) = r := by
  cases x <;> simp [encShift]
@[simp] theorem shiftArg_encShift (r : RegNum) (o3 : BitVec 6) (r1 : RegNum) (x : ShiftArg) : shiftArg (encShift r o3 r1 x) = x := by
  cases x <;> simp [encShift, shiftArg]

@[simp] theorem opField_encTicc (k : BitVec 4) (r1 : RegNum) (x : TrapArg) : opField (encTicc k r1 x) = 2 := by
  cases x <;> simp [encTicc]
@[simp] theorem op3Field_encTicc (k : BitVec 4) (r1 : RegNum) (x : TrapArg) : op3Field (encTicc k r1 x) = 0x3A := by
  cases x <;> simp [encTicc]
@[simp] theorem rs1_encTicc (k : BitVec 4) (r1 : RegNum) (x : TrapArg) : rs1 (encTicc k r1 x) = r1 := by
  cases x <;> simp [encTicc]
@[simp] theorem condField_encTicc (k : BitVec 4) (r1 : RegNum) (x : TrapArg) : condField (encTicc k r1 x) = k := by
  cases x <;> simp [encTicc]
@[simp] theorem trapArg_encTicc (k : BitVec 4) (r1 : RegNum) (x : TrapArg) : trapArg (encTicc k r1 x) = x := by
  cases x <;> simp [encTicc, trapArg]

@[simp] theorem opField_encAlt (r : RegNum) (o3 : BitVec 6) (r1 : RegNum) (x : AltArg) : opField (encAlt r o3 r1 x) = 3 := by
  cases x <;> simp [encAlt]
@[simp] theorem op3Field_encAlt (r : RegNum) (o3 : BitVec 6) (r1 : RegNum) (x : AltArg) : op3Field (encAlt r o3 r1 x) = o3 := by
  cases x <;> simp [encAlt]
@[simp] theorem rs1_encAlt (r : RegNum) (o3 : BitVec 6) (r1 : RegNum) (x : AltArg) : rs1 (encAlt r o3 r1 x) = r1 := by
  cases x <;> simp [encAlt]
@[simp] theorem rd_encAlt (r : RegNum) (o3 : BitVec 6) (r1 : RegNum) (x : AltArg) : rd (encAlt r o3 r1 x) = r := by
  cases x <;> simp [encAlt]
@[simp] theorem altArg_encAlt (r : RegNum) (o3 : BitVec 6) (r1 : RegNum) (x : AltArg) : altArg (encAlt r o3 r1 x) = x := by
  cases x <;> simp [encAlt, altArg]

end Sys2Proof
end

