-- ==== Sys2Proof/Laws/PerInstr.lean ====
section
/-! SUPPORT. The fixed fields of every row of spec/opcode_table.json stand in the words the encoder writes, one lemma for each
constructor (30_encoding R305 to R312). -/

namespace Sys2Proof.Laws.TableRow

/-- The values a row of spec/opcode_table.json fixes for op, op2, op3, cond and opf. -/
structure Row where
  op : BitVec 2
  op2 : Option (BitVec 3) := none
  op3 : Option (BitVec 6) := none
  cond : Option (BitVec 4) := none
  opf : Option (BitVec 9) := none

/-- The row of an instruction. -/
def row : Instr → Row
  | .call _ => { op := 1 }
  | .unimp _ => { op := 0, op2 := some 0 }
  | .nop => { op := 0, op2 := some 4 }
  | .sethi _ _ => { op := 0, op2 := some 4 }
  | .ba _ _ => { op := 0, op2 := some 2, cond := some 8 }
  | .bn _ _ => { op := 0, op2 := some 2, cond := some 0 }
  | .bne _ _ => { op := 0, op2 := some 2, cond := some 9 }
  | .be _ _ => { op := 0, op2 := some 2, cond := some 1 }
  | .bg _ _ => { op := 0, op2 := some 2, cond := some 10 }
  | .ble _ _ => { op := 0, op2 := some 2, cond := some 2 }
  | .bge _ _ => { op := 0, op2 := some 2, cond := some 11 }
  | .bl _ _ => { op := 0, op2 := some 2, cond := some 3 }
  | .bgu _ _ => { op := 0, op2 := some 2, cond := some 12 }
  | .bleu _ _ => { op := 0, op2 := some 2, cond := some 4 }
  | .bcc _ _ => { op := 0, op2 := some 2, cond := some 13 }
  | .bcs _ _ => { op := 0, op2 := some 2, cond := some 5 }
  | .bpos _ _ => { op := 0, op2 := some 2, cond := some 14 }
  | .bneg _ _ => { op := 0, op2 := some 2, cond := some 6 }
  | .bvc _ _ => { op := 0, op2 := some 2, cond := some 15 }
  | .bvs _ _ => { op := 0, op2 := some 2, cond := some 7 }
  | .fbn _ _ => { op := 0, op2 := some 6, cond := some 0 }
  | .fbne _ _ => { op := 0, op2 := some 6, cond := some 1 }
  | .fblg _ _ => { op := 0, op2 := some 6, cond := some 2 }
  | .fbul _ _ => { op := 0, op2 := some 6, cond := some 3 }
  | .fbl _ _ => { op := 0, op2 := some 6, cond := some 4 }
  | .fbug _ _ => { op := 0, op2 := some 6, cond := some 5 }
  | .fbg _ _ => { op := 0, op2 := some 6, cond := some 6 }
  | .fbu _ _ => { op := 0, op2 := some 6, cond := some 7 }
  | .fba _ _ => { op := 0, op2 := some 6, cond := some 8 }
  | .fbe _ _ => { op := 0, op2 := some 6, cond := some 9 }
  | .fbue _ _ => { op := 0, op2 := some 6, cond := some 10 }
  | .fbge _ _ => { op := 0, op2 := some 6, cond := some 11 }
  | .fbuge _ _ => { op := 0, op2 := some 6, cond := some 12 }
  | .fble _ _ => { op := 0, op2 := some 6, cond := some 13 }
  | .fbule _ _ => { op := 0, op2 := some 6, cond := some 14 }
  | .fbo _ _ => { op := 0, op2 := some 6, cond := some 15 }
  | .cbccc _ _ _ => { op := 0, op2 := some 7 }
  | .add _ _ _ => { op := 2, op3 := some 0x00 }
  | .and _ _ _ => { op := 2, op3 := some 0x01 }
  | .or _ _ _ => { op := 2, op3 := some 0x02 }
  | .xor _ _ _ => { op := 2, op3 := some 0x03 }
  | .sub _ _ _ => { op := 2, op3 := some 0x04 }
  | .andn _ _ _ => { op := 2, op3 := some 0x05 }
  | .orn _ _ _ => { op := 2, op3 := some 0x06 }
  | .xnor _ _ _ => { op := 2, op3 := some 0x07 }
  | .addx _ _ _ => { op := 2, op3 := some 0x08 }
  | .umul _ _ _ => { op := 2, op3 := some 0x0A }
  | .smul _ _ _ => { op := 2, op3 := some 0x0B }
  | .subx _ _ _ => { op := 2, op3 := some 0x0C }
  | .udiv _ _ _ => { op := 2, op3 := some 0x0E }
  | .sdiv _ _ _ => { op := 2, op3 := some 0x0F }
  | .addcc _ _ _ => { op := 2, op3 := some 0x10 }
  | .andcc _ _ _ => { op := 2, op3 := some 0x11 }
  | .orcc _ _ _ => { op := 2, op3 := some 0x12 }
  | .xorcc _ _ _ => { op := 2, op3 := some 0x13 }
  | .subcc _ _ _ => { op := 2, op3 := some 0x14 }
  | .andncc _ _ _ => { op := 2, op3 := some 0x15 }
  | .orncc _ _ _ => { op := 2, op3 := some 0x16 }
  | .xnorcc _ _ _ => { op := 2, op3 := some 0x17 }
  | .addxcc _ _ _ => { op := 2, op3 := some 0x18 }
  | .umulcc _ _ _ => { op := 2, op3 := some 0x1A }
  | .smulcc _ _ _ => { op := 2, op3 := some 0x1B }
  | .subxcc _ _ _ => { op := 2, op3 := some 0x1C }
  | .udivcc _ _ _ => { op := 2, op3 := some 0x1E }
  | .sdivcc _ _ _ => { op := 2, op3 := some 0x1F }
  | .taddcc _ _ _ => { op := 2, op3 := some 0x20 }
  | .tsubcc _ _ _ => { op := 2, op3 := some 0x21 }
  | .taddcctv _ _ _ => { op := 2, op3 := some 0x22 }
  | .tsubcctv _ _ _ => { op := 2, op3 := some 0x23 }
  | .mulscc _ _ _ => { op := 2, op3 := some 0x24 }
  | .sll _ _ _ => { op := 2, op3 := some 0x25 }
  | .srl _ _ _ => { op := 2, op3 := some 0x26 }
  | .sra _ _ _ => { op := 2, op3 := some 0x27 }
  | .stbar => { op := 2, op3 := some 0x28 }
  | .rdy _ => { op := 2, op3 := some 0x28 }
  | .rdasr _ _ => { op := 2, op3 := some 0x28 }
  | .rdpsr _ => { op := 2, op3 := some 0x29 }
  | .rdwim _ => { op := 2, op3 := some 0x2A }
  | .rdtbr _ => { op := 2, op3 := some 0x2B }
  | .wry _ _ => { op := 2, op3 := some 0x30 }
  | .wrasr _ _ _ => { op := 2, op3 := some 0x30 }
  | .wrpsr _ _ => { op := 2, op3 := some 0x31 }
  | .wrwim _ _ => { op := 2, op3 := some 0x32 }
  | .wrtbr _ _ => { op := 2, op3 := some 0x33 }
  | .fmovs _ _ => { op := 2, op3 := some 0x34, opf := some 0x001 }
  | .fnegs _ _ => { op := 2, op3 := some 0x34, opf := some 0x005 }
  | .fabss _ _ => { op := 2, op3 := some 0x34, opf := some 0x009 }
  | .fsqrts _ _ => { op := 2, op3 := some 0x34, opf := some 0x029 }
  | .fsqrtd _ _ => { op := 2, op3 := some 0x34, opf := some 0x02A }
  | .fadds _ _ _ => { op := 2, op3 := some 0x34, opf := some 0x041 }
  | .faddd _ _ _ => { op := 2, op3 := some 0x34, opf := some 0x042 }
  | .fsubs _ _ _ => { op := 2, op3 := some 0x34, opf := some 0x045 }
  | .fsubd _ _ _ => { op := 2, op3 := some 0x34, opf := some 0x046 }
  | .fmuls _ _ _ => { op := 2, op3 := some 0x34, opf := some 0x049 }
  | .fmuld _ _ _ => { op := 2, op3 := some 0x34, opf := some 0x04A }
  | .fdivs _ _ _ => { op := 2, op3 := some 0x34, opf := some 0x04D }
  | .fdivd _ _ _ => { op := 2, op3 := some 0x34, opf := some 0x04E }
  | .fsmuld _ _ _ => { op := 2, op3 := some 0x34, opf := some 0x069 }
  | .fitos _ _ => { op := 2, op3 := some 0x34, opf := some 0x0C4 }
  | .fdtos _ _ => { op := 2, op3 := some 0x34, opf := some 0x0C6 }
  | .fitod _ _ => { op := 2, op3 := some 0x34, opf := some 0x0C8 }
  | .fstod _ _ => { op := 2, op3 := some 0x34, opf := some 0x0C9 }
  | .fstoi _ _ => { op := 2, op3 := some 0x34, opf := some 0x0D1 }
  | .fdtoi _ _ => { op := 2, op3 := some 0x34, opf := some 0x0D2 }
  | .fsqrtq _ _ => { op := 2, op3 := some 0x34, opf := some 0x02B }
  | .faddq _ _ _ => { op := 2, op3 := some 0x34, opf := some 0x043 }
  | .fsubq _ _ _ => { op := 2, op3 := some 0x34, opf := some 0x047 }
  | .fmulq _ _ _ => { op := 2, op3 := some 0x34, opf := some 0x04B }
  | .fdivq _ _ _ => { op := 2, op3 := some 0x34, opf := some 0x04F }
  | .fdmulq _ _ _ => { op := 2, op3 := some 0x34, opf := some 0x06E }
  | .fqtos _ _ => { op := 2, op3 := some 0x34, opf := some 0x0C7 }
  | .fqtod _ _ => { op := 2, op3 := some 0x34, opf := some 0x0CB }
  | .fitoq _ _ => { op := 2, op3 := some 0x34, opf := some 0x0CC }
  | .fstoq _ _ => { op := 2, op3 := some 0x34, opf := some 0x0CD }
  | .fdtoq _ _ => { op := 2, op3 := some 0x34, opf := some 0x0CE }
  | .fqtoi _ _ => { op := 2, op3 := some 0x34, opf := some 0x0D3 }
  | .fcmps _ _ => { op := 2, op3 := some 0x35, opf := some 0x051 }
  | .fcmpd _ _ => { op := 2, op3 := some 0x35, opf := some 0x052 }
  | .fcmpes _ _ => { op := 2, op3 := some 0x35, opf := some 0x055 }
  | .fcmped _ _ => { op := 2, op3 := some 0x35, opf := some 0x056 }
  | .fcmpq _ _ => { op := 2, op3 := some 0x35, opf := some 0x053 }
  | .fcmpeq _ _ => { op := 2, op3 := some 0x35, opf := some 0x057 }
  | .cpop1 _ _ _ _ => { op := 2, op3 := some 0x36 }
  | .cpop2 _ _ _ _ => { op := 2, op3 := some 0x37 }
  | .jmpl _ _ _ => { op := 2, op3 := some 0x38 }
  | .rett _ _ => { op := 2, op3 := some 0x39 }
  | .ta _ _ => { op := 2, op3 := some 0x3A, cond := some 8 }
  | .tn _ _ => { op := 2, op3 := some 0x3A, cond := some 0 }
  | .tne _ _ => { op := 2, op3 := some 0x3A, cond := some 9 }
  | .te _ _ => { op := 2, op3 := some 0x3A, cond := some 1 }
  | .tg _ _ => { op := 2, op3 := some 0x3A, cond := some 10 }
  | .tle _ _ => { op := 2, op3 := some 0x3A, cond := some 2 }
  | .tge _ _ => { op := 2, op3 := some 0x3A, cond := some 11 }
  | .tl _ _ => { op := 2, op3 := some 0x3A, cond := some 3 }
  | .tgu _ _ => { op := 2, op3 := some 0x3A, cond := some 12 }
  | .tleu _ _ => { op := 2, op3 := some 0x3A, cond := some 4 }
  | .tcc _ _ => { op := 2, op3 := some 0x3A, cond := some 13 }
  | .tcs _ _ => { op := 2, op3 := some 0x3A, cond := some 5 }
  | .tpos _ _ => { op := 2, op3 := some 0x3A, cond := some 14 }
  | .tneg _ _ => { op := 2, op3 := some 0x3A, cond := some 6 }
  | .tvc _ _ => { op := 2, op3 := some 0x3A, cond := some 15 }
  | .tvs _ _ => { op := 2, op3 := some 0x3A, cond := some 7 }
  | .flush _ _ => { op := 2, op3 := some 0x3B }
  | .save _ _ _ => { op := 2, op3 := some 0x3C }
  | .restore _ _ _ => { op := 2, op3 := some 0x3D }
  | .mac3e _ _ _ => { op := 2, op3 := some 0x3E }
  | .mac3f _ _ _ => { op := 2, op3 := some 0x3F }
  | .ld _ _ _ => { op := 3, op3 := some 0x00 }
  | .ldub _ _ _ => { op := 3, op3 := some 0x01 }
  | .lduh _ _ _ => { op := 3, op3 := some 0x02 }
  | .ldd _ _ _ => { op := 3, op3 := some 0x03 }
  | .st _ _ _ => { op := 3, op3 := some 0x04 }
  | .stb _ _ _ => { op := 3, op3 := some 0x05 }
  | .sth _ _ _ => { op := 3, op3 := some 0x06 }
  | .std _ _ _ => { op := 3, op3 := some 0x07 }
  | .ldsb _ _ _ => { op := 3, op3 := some 0x09 }
  | .ldsh _ _ _ => { op := 3, op3 := some 0x0A }
  | .ldstub _ _ _ => { op := 3, op3 := some 0x0D }
  | .swap _ _ _ => { op := 3, op3 := some 0x0F }
  | .lda _ _ _ => { op := 3, op3 := some 0x10 }
  | .lduba _ _ _ => { op := 3, op3 := some 0x11 }
  | .lduha _ _ _ => { op := 3, op3 := some 0x12 }
  | .ldda _ _ _ => { op := 3, op3 := some 0x13 }
  | .sta _ _ _ => { op := 3, op3 := some 0x14 }
  | .stba _ _ _ => { op := 3, op3 := some 0x15 }
  | .stha _ _ _ => { op := 3, op3 := some 0x16 }
  | .stda _ _ _ => { op := 3, op3 := some 0x17 }
  | .ldsba _ _ _ => { op := 3, op3 := some 0x19 }
  | .ldsha _ _ _ => { op := 3, op3 := some 0x1A }
  | .ldstuba _ _ _ => { op := 3, op3 := some 0x1D }
  | .swapa _ _ _ => { op := 3, op3 := some 0x1F }
  | .ldf _ _ _ => { op := 3, op3 := some 0x20 }
  | .ldfsr _ _ => { op := 3, op3 := some 0x21 }
  | .lddf _ _ _ => { op := 3, op3 := some 0x23 }
  | .stf _ _ _ => { op := 3, op3 := some 0x24 }
  | .stfsr _ _ => { op := 3, op3 := some 0x25 }
  | .stdfq _ _ => { op := 3, op3 := some 0x26 }
  | .stdf _ _ _ => { op := 3, op3 := some 0x27 }
  | .ldc _ _ _ => { op := 3, op3 := some 0x30 }
  | .ldcsr _ _ _ => { op := 3, op3 := some 0x31 }
  | .lddc _ _ _ => { op := 3, op3 := some 0x33 }
  | .stc _ _ _ => { op := 3, op3 := some 0x34 }
  | .stcsr _ _ _ => { op := 3, op3 := some 0x35 }
  | .stdcq _ _ _ => { op := 3, op3 := some 0x36 }
  | .stdc _ _ _ => { op := 3, op3 := some 0x37 }

/-- The word `w` has the fields that `x` fixes. -/
def Fixed (w : Word) (x : Row) : Prop :=
  opField w = x.op ∧ (∀ v ∈ x.op2, op2Field w = v) ∧ (∀ v ∈ x.op3, op3Field w = v) ∧ (∀ v ∈ x.cond, condField w = v) ∧
    ∀ v ∈ x.opf, opf w = v

/-- The word of `i` has the fields its row fixes. -/
def Statement (i : Instr) : Prop := Fixed (encode i) (row i)

/-! The formats. -/

theorem fixed_fmt1 (d : BitVec 30) : Fixed (fmt1 d) { op := 1 } := by simp [Fixed]
theorem fixed_fmt2 (r : RegNum) (o : BitVec 3) (c : BitVec 22) : Fixed (fmt2 r o c) { op := 0, op2 := some o } := by simp [Fixed]
theorem fixed_fmt2b (a : Bool) (k : BitVec 4) (o : BitVec 3) (d : BitVec 22) :
    Fixed (fmt2b a k o d) { op := 0, op2 := some o, cond := some k } := by simp [Fixed]
theorem fixed_cp (a : Bool) (k : BitVec 4) (d : BitVec 22) : Fixed (fmt2b a k 7 d) { op := 0, op2 := some 7 } := by simp [Fixed]
theorem fixed_fmt3r (r : RegNum) (o3 : BitVec 6) (r1 : RegNum) : Fixed (fmt3r 2 r o3 r1 0 0) { op := 2, op3 := some o3 } := by
  simp [Fixed]
theorem fixed_fmt3f (r : RegNum) (o3 : BitVec 6) (r1 : RegNum) (f : BitVec 9) (r2 : RegNum) :
    Fixed (fmt3f r o3 r1 f r2) { op := 2, op3 := some o3, opf := some f } := by simp [Fixed]
theorem fixed_cpop (r : RegNum) (o3 : BitVec 6) (r1 : RegNum) (f : BitVec 9) (r2 : RegNum) :
    Fixed (fmt3f r o3 r1 f r2) { op := 2, op3 := some o3 } := by simp [Fixed]
theorem fixed_regImm (o : BitVec 2) (r : RegNum) (o3 : BitVec 6) (r1 : RegNum) (x : RegImm) :
    Fixed (encRegImm o r o3 r1 x) { op := o, op3 := some o3 } := by simp [Fixed]
theorem fixed_shift (r : RegNum) (o3 : BitVec 6) (r1 : RegNum) (x : ShiftArg) :
    Fixed (encShift r o3 r1 x) { op := 2, op3 := some o3 } := by simp [Fixed]
theorem fixed_ticc (k : BitVec 4) (r1 : RegNum) (x : TrapArg) :
    Fixed (encTicc k r1 x) { op := 2, op3 := some 0x3A, cond := some k } := by simp [Fixed]
theorem fixed_alt (r : RegNum) (o3 : BitVec 6) (r1 : RegNum) (x : AltArg) :
    Fixed (encAlt r o3 r1 x) { op := 3, op3 := some o3 } := by simp [Fixed]

/-! The constructors. -/

theorem call (disp30 : BitVec 30) : Statement (.call disp30) := fixed_fmt1 _
theorem unimp (const22 : BitVec 22) : Statement (.unimp const22) := fixed_fmt2 _ _ _
theorem nop : Statement (.nop) := fixed_fmt2 _ _ _
theorem sethi (rd : RegNum) (imm22 : BitVec 22) : Statement (.sethi rd imm22) := fixed_fmt2 _ _ _
theorem ba (a : Bool) (disp22 : BitVec 22) : Statement (.ba a disp22) := fixed_fmt2b _ _ _ _
theorem bn (a : Bool) (disp22 : BitVec 22) : Statement (.bn a disp22) := fixed_fmt2b _ _ _ _
theorem bne (a : Bool) (disp22 : BitVec 22) : Statement (.bne a disp22) := fixed_fmt2b _ _ _ _
theorem be (a : Bool) (disp22 : BitVec 22) : Statement (.be a disp22) := fixed_fmt2b _ _ _ _
theorem bg (a : Bool) (disp22 : BitVec 22) : Statement (.bg a disp22) := fixed_fmt2b _ _ _ _
theorem ble (a : Bool) (disp22 : BitVec 22) : Statement (.ble a disp22) := fixed_fmt2b _ _ _ _
theorem bge (a : Bool) (disp22 : BitVec 22) : Statement (.bge a disp22) := fixed_fmt2b _ _ _ _
theorem bl (a : Bool) (disp22 : BitVec 22) : Statement (.bl a disp22) := fixed_fmt2b _ _ _ _
theorem bgu (a : Bool) (disp22 : BitVec 22) : Statement (.bgu a disp22) := fixed_fmt2b _ _ _ _
theorem bleu (a : Bool) (disp22 : BitVec 22) : Statement (.bleu a disp22) := fixed_fmt2b _ _ _ _
theorem bcc (a : Bool) (disp22 : BitVec 22) : Statement (.bcc a disp22) := fixed_fmt2b _ _ _ _
theorem bcs (a : Bool) (disp22 : BitVec 22) : Statement (.bcs a disp22) := fixed_fmt2b _ _ _ _
theorem bpos (a : Bool) (disp22 : BitVec 22) : Statement (.bpos a disp22) := fixed_fmt2b _ _ _ _
theorem bneg (a : Bool) (disp22 : BitVec 22) : Statement (.bneg a disp22) := fixed_fmt2b _ _ _ _
theorem bvc (a : Bool) (disp22 : BitVec 22) : Statement (.bvc a disp22) := fixed_fmt2b _ _ _ _
theorem bvs (a : Bool) (disp22 : BitVec 22) : Statement (.bvs a disp22) := fixed_fmt2b _ _ _ _
theorem fbn (a : Bool) (disp22 : BitVec 22) : Statement (.fbn a disp22) := fixed_fmt2b _ _ _ _
theorem fbne (a : Bool) (disp22 : BitVec 22) : Statement (.fbne a disp22) := fixed_fmt2b _ _ _ _
theorem fblg (a : Bool) (disp22 : BitVec 22) : Statement (.fblg a disp22) := fixed_fmt2b _ _ _ _
theorem fbul (a : Bool) (disp22 : BitVec 22) : Statement (.fbul a disp22) := fixed_fmt2b _ _ _ _
theorem fbl (a : Bool) (disp22 : BitVec 22) : Statement (.fbl a disp22) := fixed_fmt2b _ _ _ _
theorem fbug (a : Bool) (disp22 : BitVec 22) : Statement (.fbug a disp22) := fixed_fmt2b _ _ _ _
theorem fbg (a : Bool) (disp22 : BitVec 22) : Statement (.fbg a disp22) := fixed_fmt2b _ _ _ _
theorem fbu (a : Bool) (disp22 : BitVec 22) : Statement (.fbu a disp22) := fixed_fmt2b _ _ _ _
theorem fba (a : Bool) (disp22 : BitVec 22) : Statement (.fba a disp22) := fixed_fmt2b _ _ _ _
theorem fbe (a : Bool) (disp22 : BitVec 22) : Statement (.fbe a disp22) := fixed_fmt2b _ _ _ _
theorem fbue (a : Bool) (disp22 : BitVec 22) : Statement (.fbue a disp22) := fixed_fmt2b _ _ _ _
theorem fbge (a : Bool) (disp22 : BitVec 22) : Statement (.fbge a disp22) := fixed_fmt2b _ _ _ _
theorem fbuge (a : Bool) (disp22 : BitVec 22) : Statement (.fbuge a disp22) := fixed_fmt2b _ _ _ _
theorem fble (a : Bool) (disp22 : BitVec 22) : Statement (.fble a disp22) := fixed_fmt2b _ _ _ _
theorem fbule (a : Bool) (disp22 : BitVec 22) : Statement (.fbule a disp22) := fixed_fmt2b _ _ _ _
theorem fbo (a : Bool) (disp22 : BitVec 22) : Statement (.fbo a disp22) := fixed_fmt2b _ _ _ _
theorem cbccc (a : Bool) (cond : BitVec 4) (disp22 : BitVec 22) : Statement (.cbccc a cond disp22) := fixed_cp _ _ _
theorem add (rd : RegNum) (rs1 : RegNum) (op2 : RegImm) : Statement (.add rd rs1 op2) := fixed_regImm _ _ _ _ _
theorem and (rd : RegNum) (rs1 : RegNum) (op2 : RegImm) : Statement (.and rd rs1 op2) := fixed_regImm _ _ _ _ _
theorem or (rd : RegNum) (rs1 : RegNum) (op2 : RegImm) : Statement (.or rd rs1 op2) := fixed_regImm _ _ _ _ _
theorem xor (rd : RegNum) (rs1 : RegNum) (op2 : RegImm) : Statement (.xor rd rs1 op2) := fixed_regImm _ _ _ _ _
theorem sub (rd : RegNum) (rs1 : RegNum) (op2 : RegImm) : Statement (.sub rd rs1 op2) := fixed_regImm _ _ _ _ _
theorem andn (rd : RegNum) (rs1 : RegNum) (op2 : RegImm) : Statement (.andn rd rs1 op2) := fixed_regImm _ _ _ _ _
theorem orn (rd : RegNum) (rs1 : RegNum) (op2 : RegImm) : Statement (.orn rd rs1 op2) := fixed_regImm _ _ _ _ _
theorem xnor (rd : RegNum) (rs1 : RegNum) (op2 : RegImm) : Statement (.xnor rd rs1 op2) := fixed_regImm _ _ _ _ _
theorem addx (rd : RegNum) (rs1 : RegNum) (op2 : RegImm) : Statement (.addx rd rs1 op2) := fixed_regImm _ _ _ _ _
theorem umul (rd : RegNum) (rs1 : RegNum) (op2 : RegImm) : Statement (.umul rd rs1 op2) := fixed_regImm _ _ _ _ _
theorem smul (rd : RegNum) (rs1 : RegNum) (op2 : RegImm) : Statement (.smul rd rs1 op2) := fixed_regImm _ _ _ _ _
theorem subx (rd : RegNum) (rs1 : RegNum) (op2 : RegImm) : Statement (.subx rd rs1 op2) := fixed_regImm _ _ _ _ _
theorem udiv (rd : RegNum) (rs1 : RegNum) (op2 : RegImm) : Statement (.udiv rd rs1 op2) := fixed_regImm _ _ _ _ _
theorem sdiv (rd : RegNum) (rs1 : RegNum) (op2 : RegImm) : Statement (.sdiv rd rs1 op2) := fixed_regImm _ _ _ _ _
theorem addcc (rd : RegNum) (rs1 : RegNum) (op2 : RegImm) : Statement (.addcc rd rs1 op2) := fixed_regImm _ _ _ _ _
theorem andcc (rd : RegNum) (rs1 : RegNum) (op2 : RegImm) : Statement (.andcc rd rs1 op2) := fixed_regImm _ _ _ _ _
theorem orcc (rd : RegNum) (rs1 : RegNum) (op2 : RegImm) : Statement (.orcc rd rs1 op2) := fixed_regImm _ _ _ _ _
theorem xorcc (rd : RegNum) (rs1 : RegNum) (op2 : RegImm) : Statement (.xorcc rd rs1 op2) := fixed_regImm _ _ _ _ _
theorem subcc (rd : RegNum) (rs1 : RegNum) (op2 : RegImm) : Statement (.subcc rd rs1 op2) := fixed_regImm _ _ _ _ _
theorem andncc (rd : RegNum) (rs1 : RegNum) (op2 : RegImm) : Statement (.andncc rd rs1 op2) := fixed_regImm _ _ _ _ _
theorem orncc (rd : RegNum) (rs1 : RegNum) (op2 : RegImm) : Statement (.orncc rd rs1 op2) := fixed_regImm _ _ _ _ _
theorem xnorcc (rd : RegNum) (rs1 : RegNum) (op2 : RegImm) : Statement (.xnorcc rd rs1 op2) := fixed_regImm _ _ _ _ _
theorem addxcc (rd : RegNum) (rs1 : RegNum) (op2 : RegImm) : Statement (.addxcc rd rs1 op2) := fixed_regImm _ _ _ _ _
theorem umulcc (rd : RegNum) (rs1 : RegNum) (op2 : RegImm) : Statement (.umulcc rd rs1 op2) := fixed_regImm _ _ _ _ _
theorem smulcc (rd : RegNum) (rs1 : RegNum) (op2 : RegImm) : Statement (.smulcc rd rs1 op2) := fixed_regImm _ _ _ _ _
theorem subxcc (rd : RegNum) (rs1 : RegNum) (op2 : RegImm) : Statement (.subxcc rd rs1 op2) := fixed_regImm _ _ _ _ _
theorem udivcc (rd : RegNum) (rs1 : RegNum) (op2 : RegImm) : Statement (.udivcc rd rs1 op2) := fixed_regImm _ _ _ _ _
theorem sdivcc (rd : RegNum) (rs1 : RegNum) (op2 : RegImm) : Statement (.sdivcc rd rs1 op2) := fixed_regImm _ _ _ _ _
theorem taddcc (rd : RegNum) (rs1 : RegNum) (op2 : RegImm) : Statement (.taddcc rd rs1 op2) := fixed_regImm _ _ _ _ _
theorem tsubcc (rd : RegNum) (rs1 : RegNum) (op2 : RegImm) : Statement (.tsubcc rd rs1 op2) := fixed_regImm _ _ _ _ _
theorem taddcctv (rd : RegNum) (rs1 : RegNum) (op2 : RegImm) : Statement (.taddcctv rd rs1 op2) := fixed_regImm _ _ _ _ _
theorem tsubcctv (rd : RegNum) (rs1 : RegNum) (op2 : RegImm) : Statement (.tsubcctv rd rs1 op2) := fixed_regImm _ _ _ _ _
theorem mulscc (rd : RegNum) (rs1 : RegNum) (op2 : RegImm) : Statement (.mulscc rd rs1 op2) := fixed_regImm _ _ _ _ _
theorem sll (rd : RegNum) (rs1 : RegNum) (cnt : ShiftArg) : Statement (.sll rd rs1 cnt) := fixed_shift _ _ _ _
theorem srl (rd : RegNum) (rs1 : RegNum) (cnt : ShiftArg) : Statement (.srl rd rs1 cnt) := fixed_shift _ _ _ _
theorem sra (rd : RegNum) (rs1 : RegNum) (cnt : ShiftArg) : Statement (.sra rd rs1 cnt) := fixed_shift _ _ _ _
theorem stbar : Statement (.stbar) := fixed_fmt3r _ _ _
theorem rdy (rd : RegNum) : Statement (.rdy rd) := fixed_fmt3r _ _ _
theorem rdasr (rd : RegNum) (n : RegNum) : Statement (.rdasr rd n) := fixed_fmt3r _ _ _
theorem rdpsr (rd : RegNum) : Statement (.rdpsr rd) := fixed_fmt3r _ _ _
theorem rdwim (rd : RegNum) : Statement (.rdwim rd) := fixed_fmt3r _ _ _
theorem rdtbr (rd : RegNum) : Statement (.rdtbr rd) := fixed_fmt3r _ _ _
theorem wry (rs1 : RegNum) (op2 : RegImm) : Statement (.wry rs1 op2) := fixed_regImm _ _ _ _ _
theorem wrasr (n : RegNum) (rs1 : RegNum) (op2 : RegImm) : Statement (.wrasr n rs1 op2) := fixed_regImm _ _ _ _ _
theorem wrpsr (rs1 : RegNum) (op2 : RegImm) : Statement (.wrpsr rs1 op2) := fixed_regImm _ _ _ _ _
theorem wrwim (rs1 : RegNum) (op2 : RegImm) : Statement (.wrwim rs1 op2) := fixed_regImm _ _ _ _ _
theorem wrtbr (rs1 : RegNum) (op2 : RegImm) : Statement (.wrtbr rs1 op2) := fixed_regImm _ _ _ _ _
theorem fmovs (rd : RegNum) (rs2 : RegNum) : Statement (.fmovs rd rs2) := fixed_fmt3f _ _ _ _ _
theorem fnegs (rd : RegNum) (rs2 : RegNum) : Statement (.fnegs rd rs2) := fixed_fmt3f _ _ _ _ _
theorem fabss (rd : RegNum) (rs2 : RegNum) : Statement (.fabss rd rs2) := fixed_fmt3f _ _ _ _ _
theorem fsqrts (rd : RegNum) (rs2 : RegNum) : Statement (.fsqrts rd rs2) := fixed_fmt3f _ _ _ _ _
theorem fsqrtd (rd : RegNum) (rs2 : RegNum) : Statement (.fsqrtd rd rs2) := fixed_fmt3f _ _ _ _ _
theorem fadds (rd : RegNum) (rs1 : RegNum) (rs2 : RegNum) : Statement (.fadds rd rs1 rs2) := fixed_fmt3f _ _ _ _ _
theorem faddd (rd : RegNum) (rs1 : RegNum) (rs2 : RegNum) : Statement (.faddd rd rs1 rs2) := fixed_fmt3f _ _ _ _ _
theorem fsubs (rd : RegNum) (rs1 : RegNum) (rs2 : RegNum) : Statement (.fsubs rd rs1 rs2) := fixed_fmt3f _ _ _ _ _
theorem fsubd (rd : RegNum) (rs1 : RegNum) (rs2 : RegNum) : Statement (.fsubd rd rs1 rs2) := fixed_fmt3f _ _ _ _ _
theorem fmuls (rd : RegNum) (rs1 : RegNum) (rs2 : RegNum) : Statement (.fmuls rd rs1 rs2) := fixed_fmt3f _ _ _ _ _
theorem fmuld (rd : RegNum) (rs1 : RegNum) (rs2 : RegNum) : Statement (.fmuld rd rs1 rs2) := fixed_fmt3f _ _ _ _ _
theorem fdivs (rd : RegNum) (rs1 : RegNum) (rs2 : RegNum) : Statement (.fdivs rd rs1 rs2) := fixed_fmt3f _ _ _ _ _
theorem fdivd (rd : RegNum) (rs1 : RegNum) (rs2 : RegNum) : Statement (.fdivd rd rs1 rs2) := fixed_fmt3f _ _ _ _ _
theorem fsmuld (rd : RegNum) (rs1 : RegNum) (rs2 : RegNum) : Statement (.fsmuld rd rs1 rs2) := fixed_fmt3f _ _ _ _ _
theorem fitos (rd : RegNum) (rs2 : RegNum) : Statement (.fitos rd rs2) := fixed_fmt3f _ _ _ _ _
theorem fdtos (rd : RegNum) (rs2 : RegNum) : Statement (.fdtos rd rs2) := fixed_fmt3f _ _ _ _ _
theorem fitod (rd : RegNum) (rs2 : RegNum) : Statement (.fitod rd rs2) := fixed_fmt3f _ _ _ _ _
theorem fstod (rd : RegNum) (rs2 : RegNum) : Statement (.fstod rd rs2) := fixed_fmt3f _ _ _ _ _
theorem fstoi (rd : RegNum) (rs2 : RegNum) : Statement (.fstoi rd rs2) := fixed_fmt3f _ _ _ _ _
theorem fdtoi (rd : RegNum) (rs2 : RegNum) : Statement (.fdtoi rd rs2) := fixed_fmt3f _ _ _ _ _
theorem fsqrtq (rd : RegNum) (rs2 : RegNum) : Statement (.fsqrtq rd rs2) := fixed_fmt3f _ _ _ _ _
theorem faddq (rd : RegNum) (rs1 : RegNum) (rs2 : RegNum) : Statement (.faddq rd rs1 rs2) := fixed_fmt3f _ _ _ _ _
theorem fsubq (rd : RegNum) (rs1 : RegNum) (rs2 : RegNum) : Statement (.fsubq rd rs1 rs2) := fixed_fmt3f _ _ _ _ _
theorem fmulq (rd : RegNum) (rs1 : RegNum) (rs2 : RegNum) : Statement (.fmulq rd rs1 rs2) := fixed_fmt3f _ _ _ _ _
theorem fdivq (rd : RegNum) (rs1 : RegNum) (rs2 : RegNum) : Statement (.fdivq rd rs1 rs2) := fixed_fmt3f _ _ _ _ _
theorem fdmulq (rd : RegNum) (rs1 : RegNum) (rs2 : RegNum) : Statement (.fdmulq rd rs1 rs2) := fixed_fmt3f _ _ _ _ _
theorem fqtos (rd : RegNum) (rs2 : RegNum) : Statement (.fqtos rd rs2) := fixed_fmt3f _ _ _ _ _
theorem fqtod (rd : RegNum) (rs2 : RegNum) : Statement (.fqtod rd rs2) := fixed_fmt3f _ _ _ _ _
theorem fitoq (rd : RegNum) (rs2 : RegNum) : Statement (.fitoq rd rs2) := fixed_fmt3f _ _ _ _ _
theorem fstoq (rd : RegNum) (rs2 : RegNum) : Statement (.fstoq rd rs2) := fixed_fmt3f _ _ _ _ _
theorem fdtoq (rd : RegNum) (rs2 : RegNum) : Statement (.fdtoq rd rs2) := fixed_fmt3f _ _ _ _ _
theorem fqtoi (rd : RegNum) (rs2 : RegNum) : Statement (.fqtoi rd rs2) := fixed_fmt3f _ _ _ _ _
theorem fcmps (rs1 : RegNum) (rs2 : RegNum) : Statement (.fcmps rs1 rs2) := fixed_fmt3f _ _ _ _ _
theorem fcmpd (rs1 : RegNum) (rs2 : RegNum) : Statement (.fcmpd rs1 rs2) := fixed_fmt3f _ _ _ _ _
theorem fcmpes (rs1 : RegNum) (rs2 : RegNum) : Statement (.fcmpes rs1 rs2) := fixed_fmt3f _ _ _ _ _
theorem fcmped (rs1 : RegNum) (rs2 : RegNum) : Statement (.fcmped rs1 rs2) := fixed_fmt3f _ _ _ _ _
theorem fcmpq (rs1 : RegNum) (rs2 : RegNum) : Statement (.fcmpq rs1 rs2) := fixed_fmt3f _ _ _ _ _
theorem fcmpeq (rs1 : RegNum) (rs2 : RegNum) : Statement (.fcmpeq rs1 rs2) := fixed_fmt3f _ _ _ _ _
theorem cpop1 (rd : RegNum) (rs1 : RegNum) (opc : BitVec 9) (rs2 : RegNum) : Statement (.cpop1 rd rs1 opc rs2) := fixed_cpop _ _ _ _ _
theorem cpop2 (rd : RegNum) (rs1 : RegNum) (opc : BitVec 9) (rs2 : RegNum) : Statement (.cpop2 rd rs1 opc rs2) := fixed_cpop _ _ _ _ _
theorem jmpl (rd : RegNum) (rs1 : RegNum) (op2 : RegImm) : Statement (.jmpl rd rs1 op2) := fixed_regImm _ _ _ _ _
theorem rett (rs1 : RegNum) (op2 : RegImm) : Statement (.rett rs1 op2) := fixed_regImm _ _ _ _ _
theorem ta (rs1 : RegNum) (arg : TrapArg) : Statement (.ta rs1 arg) := fixed_ticc _ _ _
theorem tn (rs1 : RegNum) (arg : TrapArg) : Statement (.tn rs1 arg) := fixed_ticc _ _ _
theorem tne (rs1 : RegNum) (arg : TrapArg) : Statement (.tne rs1 arg) := fixed_ticc _ _ _
theorem te (rs1 : RegNum) (arg : TrapArg) : Statement (.te rs1 arg) := fixed_ticc _ _ _
theorem tg (rs1 : RegNum) (arg : TrapArg) : Statement (.tg rs1 arg) := fixed_ticc _ _ _
theorem tle (rs1 : RegNum) (arg : TrapArg) : Statement (.tle rs1 arg) := fixed_ticc _ _ _
theorem tge (rs1 : RegNum) (arg : TrapArg) : Statement (.tge rs1 arg) := fixed_ticc _ _ _
theorem tl (rs1 : RegNum) (arg : TrapArg) : Statement (.tl rs1 arg) := fixed_ticc _ _ _
theorem tgu (rs1 : RegNum) (arg : TrapArg) : Statement (.tgu rs1 arg) := fixed_ticc _ _ _
theorem tleu (rs1 : RegNum) (arg : TrapArg) : Statement (.tleu rs1 arg) := fixed_ticc _ _ _
theorem tcc (rs1 : RegNum) (arg : TrapArg) : Statement (.tcc rs1 arg) := fixed_ticc _ _ _
theorem tcs (rs1 : RegNum) (arg : TrapArg) : Statement (.tcs rs1 arg) := fixed_ticc _ _ _
theorem tpos (rs1 : RegNum) (arg : TrapArg) : Statement (.tpos rs1 arg) := fixed_ticc _ _ _
theorem tneg (rs1 : RegNum) (arg : TrapArg) : Statement (.tneg rs1 arg) := fixed_ticc _ _ _
theorem tvc (rs1 : RegNum) (arg : TrapArg) : Statement (.tvc rs1 arg) := fixed_ticc _ _ _
theorem tvs (rs1 : RegNum) (arg : TrapArg) : Statement (.tvs rs1 arg) := fixed_ticc _ _ _
theorem flush (rs1 : RegNum) (op2 : RegImm) : Statement (.flush rs1 op2) := fixed_regImm _ _ _ _ _
theorem save (rd : RegNum) (rs1 : RegNum) (op2 : RegImm) : Statement (.save rd rs1 op2) := fixed_regImm _ _ _ _ _
theorem restore (rd : RegNum) (rs1 : RegNum) (op2 : RegImm) : Statement (.restore rd rs1 op2) := fixed_regImm _ _ _ _ _
theorem mac3e (rd : RegNum) (rs1 : RegNum) (op2 : RegImm) : Statement (.mac3e rd rs1 op2) := fixed_regImm _ _ _ _ _
theorem mac3f (rd : RegNum) (rs1 : RegNum) (op2 : RegImm) : Statement (.mac3f rd rs1 op2) := fixed_regImm _ _ _ _ _
theorem ld (rd : RegNum) (rs1 : RegNum) (op2 : RegImm) : Statement (.ld rd rs1 op2) := fixed_regImm _ _ _ _ _
theorem ldub (rd : RegNum) (rs1 : RegNum) (op2 : RegImm) : Statement (.ldub rd rs1 op2) := fixed_regImm _ _ _ _ _
theorem lduh (rd : RegNum) (rs1 : RegNum) (op2 : RegImm) : Statement (.lduh rd rs1 op2) := fixed_regImm _ _ _ _ _
theorem ldd (rd : RegNum) (rs1 : RegNum) (op2 : RegImm) : Statement (.ldd rd rs1 op2) := fixed_regImm _ _ _ _ _
theorem st (rd : RegNum) (rs1 : RegNum) (op2 : RegImm) : Statement (.st rd rs1 op2) := fixed_regImm _ _ _ _ _
theorem stb (rd : RegNum) (rs1 : RegNum) (op2 : RegImm) : Statement (.stb rd rs1 op2) := fixed_regImm _ _ _ _ _
theorem sth (rd : RegNum) (rs1 : RegNum) (op2 : RegImm) : Statement (.sth rd rs1 op2) := fixed_regImm _ _ _ _ _
theorem std (rd : RegNum) (rs1 : RegNum) (op2 : RegImm) : Statement (.std rd rs1 op2) := fixed_regImm _ _ _ _ _
theorem ldsb (rd : RegNum) (rs1 : RegNum) (op2 : RegImm) : Statement (.ldsb rd rs1 op2) := fixed_regImm _ _ _ _ _
theorem ldsh (rd : RegNum) (rs1 : RegNum) (op2 : RegImm) : Statement (.ldsh rd rs1 op2) := fixed_regImm _ _ _ _ _
theorem ldstub (rd : RegNum) (rs1 : RegNum) (op2 : RegImm) : Statement (.ldstub rd rs1 op2) := fixed_regImm _ _ _ _ _
theorem swap (rd : RegNum) (rs1 : RegNum) (op2 : RegImm) : Statement (.swap rd rs1 op2) := fixed_regImm _ _ _ _ _
theorem lda (rd : RegNum) (rs1 : RegNum) (alt : AltArg) : Statement (.lda rd rs1 alt) := fixed_alt _ _ _ _
theorem lduba (rd : RegNum) (rs1 : RegNum) (alt : AltArg) : Statement (.lduba rd rs1 alt) := fixed_alt _ _ _ _
theorem lduha (rd : RegNum) (rs1 : RegNum) (alt : AltArg) : Statement (.lduha rd rs1 alt) := fixed_alt _ _ _ _
theorem ldda (rd : RegNum) (rs1 : RegNum) (alt : AltArg) : Statement (.ldda rd rs1 alt) := fixed_alt _ _ _ _
theorem sta (rd : RegNum) (rs1 : RegNum) (alt : AltArg) : Statement (.sta rd rs1 alt) := fixed_alt _ _ _ _
theorem stba (rd : RegNum) (rs1 : RegNum) (alt : AltArg) : Statement (.stba rd rs1 alt) := fixed_alt _ _ _ _
theorem stha (rd : RegNum) (rs1 : RegNum) (alt : AltArg) : Statement (.stha rd rs1 alt) := fixed_alt _ _ _ _
theorem stda (rd : RegNum) (rs1 : RegNum) (alt : AltArg) : Statement (.stda rd rs1 alt) := fixed_alt _ _ _ _
theorem ldsba (rd : RegNum) (rs1 : RegNum) (alt : AltArg) : Statement (.ldsba rd rs1 alt) := fixed_alt _ _ _ _
theorem ldsha (rd : RegNum) (rs1 : RegNum) (alt : AltArg) : Statement (.ldsha rd rs1 alt) := fixed_alt _ _ _ _
theorem ldstuba (rd : RegNum) (rs1 : RegNum) (alt : AltArg) : Statement (.ldstuba rd rs1 alt) := fixed_alt _ _ _ _
theorem swapa (rd : RegNum) (rs1 : RegNum) (alt : AltArg) : Statement (.swapa rd rs1 alt) := fixed_alt _ _ _ _
theorem ldf (rd : RegNum) (rs1 : RegNum) (op2 : RegImm) : Statement (.ldf rd rs1 op2) := fixed_regImm _ _ _ _ _
theorem ldfsr (rs1 : RegNum) (op2 : RegImm) : Statement (.ldfsr rs1 op2) := fixed_regImm _ _ _ _ _
theorem lddf (rd : RegNum) (rs1 : RegNum) (op2 : RegImm) : Statement (.lddf rd rs1 op2) := fixed_regImm _ _ _ _ _
theorem stf (rd : RegNum) (rs1 : RegNum) (op2 : RegImm) : Statement (.stf rd rs1 op2) := fixed_regImm _ _ _ _ _
theorem stfsr (rs1 : RegNum) (op2 : RegImm) : Statement (.stfsr rs1 op2) := fixed_regImm _ _ _ _ _
theorem stdfq (rs1 : RegNum) (op2 : RegImm) : Statement (.stdfq rs1 op2) := fixed_regImm _ _ _ _ _
theorem stdf (rd : RegNum) (rs1 : RegNum) (op2 : RegImm) : Statement (.stdf rd rs1 op2) := fixed_regImm _ _ _ _ _
theorem ldc (rd : RegNum) (rs1 : RegNum) (op2 : RegImm) : Statement (.ldc rd rs1 op2) := fixed_regImm _ _ _ _ _
theorem ldcsr (rd : RegNum) (rs1 : RegNum) (op2 : RegImm) : Statement (.ldcsr rd rs1 op2) := fixed_regImm _ _ _ _ _
theorem lddc (rd : RegNum) (rs1 : RegNum) (op2 : RegImm) : Statement (.lddc rd rs1 op2) := fixed_regImm _ _ _ _ _
theorem stc (rd : RegNum) (rs1 : RegNum) (op2 : RegImm) : Statement (.stc rd rs1 op2) := fixed_regImm _ _ _ _ _
theorem stcsr (rd : RegNum) (rs1 : RegNum) (op2 : RegImm) : Statement (.stcsr rd rs1 op2) := fixed_regImm _ _ _ _ _
theorem stdcq (rd : RegNum) (rs1 : RegNum) (op2 : RegImm) : Statement (.stdcq rd rs1 op2) := fixed_regImm _ _ _ _ _
theorem stdc (rd : RegNum) (rs1 : RegNum) (op2 : RegImm) : Statement (.stdc rd rs1 op2) := fixed_regImm _ _ _ _ _

end Sys2Proof.Laws.TableRow
end

