-- ==== Sys2Proof/Tests/Slice0.lean ====
section
/-! SUPPORT. Tests: the WellFormed smoke, a word of every instruction written out from the spec's encoding, one-step tests whose
expected values are those of spec 95_test_vectors (V-…) and 96_test_vectors_arith, and for every obligation with hypotheses a state
that meets them. -/

namespace Sys2Proof.Tests

-- Each test is checked before the next begins.
set_option Elab.async false

open Sys2Proof.Machine

/-! ### Access widths (93 I2, I64, 92 D8) -/

theorem test_byte_of_register_refused :
    [0x80000001#32, 0xC0000009#32].all (fun a => match areaRead State.reset false a .byte with
      | .refuse .registerAccessWidth => true
      | _ => false) = true := by decide +kernel
theorem test_byte_of_gap_and_dsu :
    [0x80000029#32, 0xC000000D#32, 0x90000001#32].all (fun a => match areaRead State.reset false a .byte with
      | .ok _ t => t.dev == State.reset.dev
      | _ => false) = true := by decide +kernel
/-- The bounds of the table of 10_state R42 and of Table 6-1 of 11 R92. -/
theorem test_listed :
    ([0x24, 0x58, 0x64, 0xA8, 0xC4, 0xD0, 0xEC, 0x100, 0x118].all regListed && [0x28, 0x5C, 0x68, 0xAC, 0xD4, 0xF0, 0x11C].all (!regListed ·) &&
      [0x8, 0x28, 0x4C, 0x98].all pciListed && [0xC, 0x2C, 0x50, 0x9C, 0x400].all (!pciListed ·)) = true := by decide

/-! ### Data held by the prefetchable windows (61 R741 to R744, 11 R106, R107) and the order of devices (70 R840) -/

/-- A word read ahead is fetched without a second PCI read, and one held for more than AHBPCI_TIMER = 0x100 cycles sets bit 14. -/
theorem test_prefetch_ahbpci :
    (let s := { State.reset with pci := { Pci.reset with ready := true }, busAnswers := [⟨some 1, [2, 3]⟩] }
     let r := pciWindowRead s false 0xE0000000#32 4
     let q := pciWindowRead r.2 false 0xE0000004#32 4
     let late (n : Nat) := (discardHeld { q.2 with clk := n }).pci
     r.1 == some 1 && q.1 == some 2 && q.2.out == r.2.out && (late 0x100).istatus == 0 && (late 0x100).heldPci.words == [3] &&
       (late 0x101).istatus == 0x4000#32 && (late 0x101).heldPci.words == []) = true := by decide +kernel

/-- A read of the window of BAR4 takes two words ahead; the next read fetches one, the other sets bit 6 (window at PROM address 0). -/
theorem test_prefetch_pciahb :
    (let s := { State.reset with pci := { Pci.reset with addrPf := 1#32 } }
     let r := pciMasterRead s 0x10#32 2
     let q := pciMasterRead r 0x14#32 2
     let late := (discardHeld { q with clk := 0x101 }).pci
     r.pci.heldAhb.addr == 0x14#32 && r.pci.heldAhb.words.length == 2 && q.pci.heldAhb.addr == 0x18#32 &&
       q.pci.heldAhb.words.length == 1 && late.istatus == 0x40#32 && late.heldAhb.words == []) = true := by decide +kernel

/-- A frame is received before a bus master acts, whatever the order of the schedule, and cycles pass on the model clock. -/
theorem test_order_of_devices :
    (let s := { State.reset with dev := { Dev.reset with uart1 := { Uart.reset with ctrl := 1#32 } } }
     let t := passTime 3 [.linkRead 0x80000070#32, .uartRx .u1 0x41#8 false false false] s
     t.clk == 3 && t.out.any (· == .linkData 0x41#32) && !t.dev.uart1.dr) = true := by decide +kernel

/-! ### WellFormed (30 R305, R306, R312) -/

theorem test_illformed_sethi : (Instr.sethi 0 0).wellFormed = false := by decide
theorem test_illformed_rdasr_y : (Instr.rdasr 9 0).wellFormed = false := by decide
theorem test_illformed_rdasr_stbar : (Instr.rdasr 0 15).wellFormed = false := by decide
theorem test_illformed_wrasr_y : (Instr.wrasr 0 1 (.reg 2)).wellFormed = false := by decide
theorem test_wellformed_near : (Instr.sethi 0 1).wellFormed && (Instr.rdasr 1 15).wellFormed && (Instr.wrasr 1 0 (.reg 0)).wellFormed = true := by
  decide

/-! ### Decoding: every word is the opcode table's match with every operand field set by hand -/

/-- Each word decodes to its instruction. -/
def decodes (l : List (Nat × Instr)) : Bool := l.all fun p => match decode (BitVec.ofNat 32 p.1) with
  | .ok i => i == p.2
  | .error _ => false

theorem test_decode_call : decodes
  [
    (0x60000001, (.call 0x20000001))
  ] = true := by decide +kernel

theorem test_decode_unimp : decodes
  [
    (0x002A9774, (.unimp 0x2A9774))
  ] = true := by decide +kernel

theorem test_decode_nop_sethi : decodes
  [
    (0x01000000, .nop), (0x232AD116, (.sethi 17 0x2AD116))
  ] = true := by decide +kernel

theorem test_decode_bicc : decodes
  [
    (0x30AA3001, (.ba true 0x2A3001)), (0x00AA1330, (.bn false 0x2A1330)), (0x32AA7223, (.bne true 0x2A7223)),
    (0x02AA5DD2, (.be false 0x2A5DD2)), (0x34ABBCCD, (.bg true 0x2BBCCD)), (0x04AB9FFC, (.ble false 0x2B9FFC)),
    (0x36ABFEEF, (.bge true 0x2BFEEF)), (0x06ABD99E, (.bl false 0x2BD99E)), (0x38AB3889, (.bgu true 0x2B3889)),
    (0x08AB1BB8, (.bleu false 0x2B1BB8)), (0x3AAB7AAB, (.bcc true 0x2B7AAB)), (0x0AAB445A, (.bcs false 0x2B445A)),
    (0x3CA8A775, (.bpos true 0x28A775)), (0x0CA88664, (.bneg false 0x288664)), (0x3EA8E117, (.bvc true 0x28E117)),
    (0x0EA8C006, (.bvs false 0x28C006))
  ] = true := by decide +kernel

theorem test_decode_fbfcc : decodes
  [
    (0x21A82331, (.fbn true 0x282331)), (0x03A80220, (.fbne false 0x280220)), (0x25A86DD3, (.fblg true 0x286DD3)),
    (0x07A84CC2, (.fbul false 0x284CC2)), (0x29A9AFFD, (.fbl true 0x29AFFD)), (0x0BA98EEC, (.fbug false 0x298EEC)),
    (0x2DA9E99F, (.fbg true 0x29E99F)), (0x0FA9C88E, (.fbu false 0x29C88E)), (0x31A92BB9, (.fba true 0x292BB9)),
    (0x13A90AA8, (.fbe false 0x290AA8)), (0x35A9145B, (.fbue true 0x29145B)), (0x17A9774A, (.fbge false 0x29774A)),
    (0x39A95665, (.fbuge true 0x295665)), (0x1BAEB114, (.fble false 0x2EB114)), (0x3DAE9007, (.fbule true 0x2E9007)),
    (0x1FAEF336, (.fbo false 0x2EF336))
  ] = true := by decide +kernel

theorem test_decode_coprocessor : decodes
  [
    (0x3BEED221, (.cbccc true 13 0x2ED221)), (0x93B46AAB, (.cpop1 9 17 0x155 11)), (0x97BD2AB0, (.cpop2 11 20 0x155 16))
  ] = true := by decide +kernel

theorem test_decode_format3_1 : decodes
  [
    (0xAA00C009, (.add 21 3 (.reg 9))), (0xAE01B5A3, (.add 23 6 (.imm 0x15A3))), (0xB20A4013, (.and 25 9 (.reg 19))),
    (0xB6130018, (.or 27 12 (.reg 24))), (0xBA1BC01D, (.xor 29 15 (.reg 29))), (0xBE248002, (.sub 31 18 (.reg 2))),
    (0x822D4007, (.andn 1 21 (.reg 7))), (0x8636000C, (.orn 3 24 (.reg 12))), (0x8A3EC011, (.xnor 5 27 (.reg 17))),
    (0x8E478016, (.addx 7 30 (.reg 22))), (0x9250401B, (.umul 9 1 (.reg 27))), (0x96590000, (.smul 11 4 (.reg 0))),
    (0x9A61C005, (.subx 13 7 (.reg 5))), (0x9E72800A, (.udiv 15 10 (.reg 10))), (0xA27B400F, (.sdiv 17 13 (.reg 15))),
    (0xA6840014, (.addcc 19 16 (.reg 20))), (0xAA8CC019, (.andcc 21 19 (.reg 25))), (0xAE95801E, (.orcc 23 22 (.reg 30))),
    (0xB29E4003, (.xorcc 25 25 (.reg 3))), (0xB6A70008, (.subcc 27 28 (.reg 8))), (0xBAAFC00D, (.andncc 29 31 (.reg 13))),
    (0xBEB08012, (.orncc 31 2 (.reg 18))), (0x82B94017, (.xnorcc 1 5 (.reg 23))), (0x86C2001C, (.addxcc 3 8 (.reg 28))),
    (0x8AD2C001, (.umulcc 5 11 (.reg 1))), (0x8EDB8006, (.smulcc 7 14 (.reg 6))), (0x92E4400B, (.subxcc 9 17 (.reg 11))),
    (0x96F50010, (.udivcc 11 20 (.reg 16))), (0x9AFDC015, (.sdivcc 13 23 (.reg 21))), (0x9EFEB9AF, (.sdivcc 15 26 (.imm 0x19AF))),
    (0xA307401F, (.taddcc 17 29 (.reg 31))), (0xA7080004, (.tsubcc 19 0 (.reg 4))), (0xAB10C009, (.taddcctv 21 3 (.reg 9))),
    (0xAF19800E, (.tsubcctv 23 6 (.reg 14))), (0xB3224013, (.mulscc 25 9 (.reg 19))), (0x9BC5C015, (.jmpl 13 23 (.reg 21))),
    (0x9FC6B2EF, (.jmpl 15 26 (.imm 0x12EF))), (0xB7E70008, (.save 27 28 (.reg 8))), (0xBBE7F642, (.save 29 31 (.imm 0x1642))),
    (0xBFE88012, (.restore 31 2 (.reg 18))), (0x83F14017, (.mac3e 1 5 (.reg 23))), (0x87FA001C, (.mac3f 3 8 (.reg 28))),
    (0x8BFAF6D6, (.mac3f 5 11 (.imm 0x16D6))), (0xCE038006, (.ld 7 14 (.reg 6))), (0xD2047720, (.ld 9 17 (.imm 0x1720))),
    (0xD60D0010, (.ldub 11 20 (.reg 16))), (0xDA15C015, (.lduh 13 23 (.reg 21))), (0xDE1E801A, (.ldd 15 26 (.reg 26)))
  ] = true := by decide +kernel

theorem test_decode_format3_2 : decodes
  [
    (0xE227401F, (.st 17 29 (.reg 31))), (0xE6280004, (.stb 19 0 (.reg 4))), (0xEA30C009, (.sth 21 3 (.reg 9))),
    (0xEE39800E, (.std 23 6 (.reg 14))), (0xF23A7848, (.std 25 9 (.imm 0x1848))), (0xF64B0018, (.ldsb 27 12 (.reg 24))),
    (0xFA53C01D, (.ldsh 29 15 (.reg 29))), (0xFE6C8002, (.ldstub 31 18 (.reg 2))), (0xC27D4007, (.swap 1 21 (.reg 7))),
    (0xC67E3901, (.swap 3 24 (.imm 0x1901))), (0xC3014017, (.ldf 1 5 (.reg 23))), (0xCB1AC001, (.lddf 5 11 (.reg 1))),
    (0xCF238006, (.stf 7 14 (.reg 6))), (0xDF3E801A, (.stdf 15 26 (.reg 26))), (0xE387401F, (.ldc 17 29 (.reg 31))),
    (0xE7880004, (.ldcsr 19 0 (.reg 4))), (0xEB98C009, (.lddc 21 3 (.reg 9))), (0xEFA1800E, (.stc 23 6 (.reg 14))),
    (0xF3AA4013, (.stcsr 25 9 (.reg 19))), (0xF7B30018, (.stdcq 27 12 (.reg 24))), (0xFBB3FD32, (.stdcq 29 15 (.imm 0x1D32))),
    (0xFFBC8002, (.stdc 31 18 (.reg 2)))
  ] = true := by decide +kernel

theorem test_decode_shift : decodes
  [
    (0xB72B0018, (.sll 27 12 (.reg 24))), (0xBB2BE01F, (.sll 29 15 (.imm 31))), (0xBF348002, (.srl 31 18 (.reg 2))),
    (0x833D4007, (.sra 1 21 (.reg 7)))
  ] = true := by decide +kernel

theorem test_decode_state : decodes
  [
    (0x8143C000, .stbar), (0x8B400000, (.rdy 5)), (0x93480000, (.rdpsr 9)), (0x97500000, (.rdwim 11)), (0x9B580000, (.rdtbr 13)),
    (0x8F47C000, (.rdasr 7 31)), (0xAB840014, (.wrasr 21 16 (.reg 20))), (0xAD84FC6E, (.wrasr 22 19 (.imm 0x1C6E)))
  ] = true := by decide +kernel

theorem test_decode_format3_no_rd : decodes
  [
    (0x8182800A, (.wry 10 (.reg 10))), (0x81837C24, (.wry 13 (.imm 0x1C24))), (0x818D801E, (.wrpsr 22 (.reg 30))),
    (0x81964003, (.wrwim 25 (.reg 3))), (0x819F0008, (.wrtbr 28 (.reg 8))), (0x81CF401F, (.rett 29 (.reg 31))),
    (0x81C83339, (.rett 0 (.imm 0x1339))), (0x81DD801E, (.flush 22 (.reg 30))), (0x81DE75F8, (.flush 25 (.imm 0x15F8))),
    (0xC10A001C, (.ldfsr 8 (.reg 28))), (0xC12C400B, (.stfsr 17 (.reg 11))), (0xC12D3BE5, (.stfsr 20 (.imm 0x1BE5))),
    (0xC135C015, (.stdfq 23 (.reg 21)))
  ] = true := by decide +kernel

theorem test_decode_fpop1_unary : decodes
  [
    (0xBBA0002D, (.fmovs 29 13)), (0xBFA000B2, (.fnegs 31 18)), (0x83A00137, (.fabss 1 23)), (0x87A0053C, (.fsqrts 3 28)),
    (0x8BA00541, (.fsqrtd 5 1)), (0xB3A01893, (.fitos 25 19)), (0xB7A018D8, (.fdtos 27 24)), (0xBBA0191D, (.fitod 29 29)),
    (0xBFA01922, (.fstod 31 2)), (0x83A01A27, (.fstoi 1 7)), (0x87A01A4C, (.fdtoi 3 12)), (0x8BA00571, (.fsqrtq 5 17)),
    (0xA3A018EF, (.fqtos 17 15)), (0xA7A01974, (.fqtod 19 20)), (0xABA01999, (.fitoq 21 25)), (0xAFA019BE, (.fstoq 23 30)),
    (0xB3A019C3, (.fdtoq 25 3)), (0xB7A01A68, (.fqtoi 27 8))
  ] = true := by decide +kernel

theorem test_decode_fpop1 : decodes
  [
    (0x8FA38826, (.fadds 7 14 6)), (0x93A4484B, (.faddd 9 17 11)), (0x97A508B0, (.fsubs 11 20 16)), (0x9BA5C8D5, (.fsubd 13 23 21)),
    (0x9FA6893A, (.fmuls 15 26 26)), (0xA3A7495F, (.fmuld 17 29 31)), (0xA7A009A4, (.fdivs 19 0 4)), (0xABA0C9C9, (.fdivd 21 3 9)),
    (0xAFA18D2E, (.fsmuld 23 6 14)), (0x8FA78876, (.faddq 7 30 22)), (0x93A048FB, (.fsubq 9 1 27)), (0x97A10960, (.fmulq 11 4 0)),
    (0x9BA1C9E5, (.fdivq 13 7 5)), (0x9FA28DCA, (.fdmulq 15 10 10))
  ] = true := by decide +kernel

theorem test_decode_fpop2 : decodes
  [
    (0x81AFCA2D, (.fcmps 31 13)), (0x81A88A52, (.fcmpd 2 18)), (0x81A94AB7, (.fcmpes 5 23)), (0x81AA0ADC, (.fcmped 8 28)),
    (0x81AACA61, (.fcmpq 11 1)), (0x81AB8AE6, (.fcmpeq 14 6))
  ] = true := by decide +kernel

theorem test_decode_ticc : decodes
  [
    (0x91D0C009, (.ta 3 (.reg 9))), (0x91D1A047, (.ta 6 (.imm 71))), (0x81D24013, (.tn 9 (.reg 19))),
    (0x93D30018, (.tne 12 (.reg 24))), (0x83D3C01D, (.te 15 (.reg 29))), (0x95D48002, (.tg 18 (.reg 2))),
    (0x85D54007, (.tle 21 (.reg 7))), (0x97D6000C, (.tge 24 (.reg 12))), (0x87D6C011, (.tl 27 (.reg 17))),
    (0x99D78016, (.tgu 30 (.reg 22))), (0x89D0401B, (.tleu 1 (.reg 27))), (0x9BD10000, (.tcc 4 (.reg 0))),
    (0x8BD1C005, (.tcs 7 (.reg 5))), (0x9DD2800A, (.tpos 10 (.reg 10))), (0x8DD3400F, (.tneg 13 (.reg 15))),
    (0x9FD40014, (.tvc 16 (.reg 20))), (0x8FD4C019, (.tvs 19 (.reg 25)))
  ] = true := by decide +kernel

theorem test_decode_alternate : decodes
  [
    (0xCA86D1D1, (.lda 5 27 (.reg 0x8E 17))), (0xCE87AF50, (.lda 7 30 (.imm 0x0F50))), (0xD288501B, (.lduba 9 1 (.reg 0x80 27))),
    (0xD6911020, (.lduha 11 4 (.reg 0x81 0))), (0xDA99D045, (.ldda 13 7 (.reg 0x82 5))), (0xDEA2906A, (.sta 15 10 (.reg 0x83 10))),
    (0xE2AB508F, (.stba 17 13 (.reg 0x84 15))), (0xE6B410B4, (.stha 19 16 (.reg 0x85 20))),
    (0xEABCD0D9, (.stda 21 19 (.reg 0x86 25))), (0xEEBDAF48, (.stda 23 22 (.imm 0x0F48))),
    (0xF2CE5103, (.ldsba 25 25 (.reg 0x88 3))), (0xF6D71128, (.ldsha 27 28 (.reg 0x89 8))),
    (0xFAEFD14D, (.ldstuba 29 31 (.reg 0x8A 13))), (0xFEF89172, (.swapa 31 2 (.reg 0x8B 18)))
  ] = true := by decide +kernel

/-- The host's interface to the decoder gives the same. -/
theorem test_decode_table_word : decodeTableWord 32 0x900C0011 = some (.and 8 16 (.reg 17)) ∧ decodeTableWord 32 0x00400000 = none := by
  decide +kernel

/-! ### One-step tests -/

/-- Supervisor mode, traps enabled, 8 Mbyte of RAM, caches off, pc in PROM; TBA as the vectors of 95 have it. -/
def base : State :=
  { State.reset with
    pc := 0x00000100#32, npc := 0x00000104#32, tba := 0x40002#20, psr := { Psr.reset with et := true, res := 0 }
    dev := { Dev.reset with mcfg2 := 0x00079E2F#32 } }

/-- Registers set before a test. -/
def given (l : List (RegNum × Word)) (s : State) : State := l.foldl (fun u p => writeR u p.1 p.2) s
def givenF (l : List (RegNum × Word)) (s : State) : State := l.foldl (fun u p => writeF u p.1 p.2) s

/-- One step of the word `w`. -/
def ran (s : State) (w : Nat) : State := match step (s.withFetchWord 32 w) with
  | .next t => t
  | _ => s

def nzvc (s : State) : BitVec 4 := b1 s.psr.n ++ b1 s.psr.z ++ b1 s.psr.v ++ b1 s.psr.c
def withNzvc (f : BitVec 4) (s : State) : State :=
  { s with psr := { s.psr with n := f.getLsbD 3, z := f.getLsbD 2, v := f.getLsbD 1, c := f.getLsbD 0 } }

/-- `s` in the window it had before the trap that was just entered. -/
def old (s : State) : State := { s with psr := { s.psr with cwp := s.psr.cwp + 1 } }

/-- A trap of type `tt` was entered in this step. -/
def took (t : State) (tt : BitVec 8) : Bool := t.trapped && t.tt == tt && t.pc == 0x40002000#32 + (tt.setWidth 32 <<< 4)

/-- What a row of 96 shows: trap type if any, %o0 (0 before), Y, NZVC. -/
abbrev Row := Option (BitVec 8) × Word × Word × BitVec 4
def alu (l : List (RegNum × Word)) (y : Word) (f : BitVec 4) (w : Nat) : Row :=
  let t := ran (given l (withNzvc f { base with y := y })) w
  if t.trapped then (some t.tt, (old t).r 8, t.y, nzvc t) else (none, t.r 8, t.y, nzvc t)
def result (v y : Word) (f : BitVec 4) : Row := (none, v, y, f)
def trapped (y : Word) (f : BitVec 4) (tt : BitVec 8) : Row := (some tt, 0, y, f)

/-! Arithmetic, logic, shift, multiply, divide: rows of 96. -/

theorem test_and :
    alu [(16, 0xF0F0A5A5#32), (17, 0x0FF0FFFF#32)] 0x00000000#32 0b0011#4 0x900C0011 = result 0x00F0A5A5#32 0x00000000#32 0b0011#4 := by decide +kernel
theorem test_andcc :
    alu [(16, 0xF0F0A5A5#32), (17, 0x0FF0FFFF#32)] 0x00000000#32 0b0011#4 0x908C0011 = result 0x00F0A5A5#32 0x00000000#32 0b0000#4 := by decide +kernel
theorem test_andcc_2 :
    alu [(16, 0x80000000#32), (17, 0x55555555#32)] 0x00000000#32 0b0011#4 0x908C3FFF = result 0x80000000#32 0x00000000#32 0b1000#4 := by decide +kernel
theorem test_andn :
    alu [(16, 0xF0F0A5A5#32), (17, 0x0FF0FFFF#32)] 0x00000000#32 0b0011#4 0x902C0011 = result 0xF0000000#32 0x00000000#32 0b0011#4 := by decide +kernel
theorem test_andn_2 :
    alu [(16, 0xFFFFFFFF#32), (17, 0x55555555#32)] 0x00000000#32 0b0000#4 0x902C2FFF = result 0xFFFFF000#32 0x00000000#32 0b0000#4 := by decide +kernel
theorem test_andncc :
    alu [(16, 0xF0F0A5A5#32), (17, 0x0FF0FFFF#32)] 0x00000000#32 0b0011#4 0x90AC0011 = result 0xF0000000#32 0x00000000#32 0b1000#4 := by decide +kernel
theorem test_or :
    alu [(16, 0xF0F0A5A5#32), (17, 0x0FF0FFFF#32)] 0x00000000#32 0b0011#4 0x90140011 = result 0xFFF0FFFF#32 0x00000000#32 0b0011#4 := by decide +kernel
theorem test_orcc :
    alu [(16, 0xF0F0A5A5#32), (17, 0x0FF0FFFF#32)] 0x00000000#32 0b0011#4 0x90940011 = result 0xFFF0FFFF#32 0x00000000#32 0b1000#4 := by decide +kernel
theorem test_orcc_2 :
    alu [(16, 0x00000000#32), (17, 0x00000000#32)] 0x00000000#32 0b1011#4 0x90940011 = result 0x00000000#32 0x00000000#32 0b0100#4 := by decide +kernel
theorem test_orn :
    alu [(16, 0xF0F0A5A5#32), (17, 0x0FF0FFFF#32)] 0x00000000#32 0b0011#4 0x90340011 = result 0xF0FFA5A5#32 0x00000000#32 0b0011#4 := by decide +kernel
theorem test_orncc :
    alu [(16, 0xF0F0A5A5#32), (17, 0x0FF0FFFF#32)] 0x00000000#32 0b0011#4 0x90B40011 = result 0xF0FFA5A5#32 0x00000000#32 0b1000#4 := by decide +kernel
theorem test_xor :
    alu [(16, 0xF0F0A5A5#32), (17, 0x0FF0FFFF#32)] 0x00000000#32 0b0011#4 0x901C0011 = result 0xFF005A5A#32 0x00000000#32 0b0011#4 := by decide +kernel
theorem test_xorcc :
    alu [(16, 0xF0F0A5A5#32), (17, 0x0FF0FFFF#32)] 0x00000000#32 0b0011#4 0x909C0011 = result 0xFF005A5A#32 0x00000000#32 0b1000#4 := by decide +kernel
theorem test_xorcc_2 :
    alu [(16, 0x12345678#32), (17, 0x12345678#32)] 0x00000000#32 0b1011#4 0x909C0011 = result 0x00000000#32 0x00000000#32 0b0100#4 := by decide +kernel
theorem test_xnor :
    alu [(16, 0xF0F0A5A5#32), (17, 0x0FF0FFFF#32)] 0x00000000#32 0b0011#4 0x903C0011 = result 0x00FFA5A5#32 0x00000000#32 0b0011#4 := by decide +kernel
theorem test_xnor_2 :
    alu [(16, 0x0000FFFF#32), (17, 0x55555555#32)] 0x00000000#32 0b0000#4 0x903C3FFF = result 0x0000FFFF#32 0x00000000#32 0b0000#4 := by decide +kernel
theorem test_xnorcc :
    alu [(16, 0xF0F0A5A5#32), (17, 0x0FF0FFFF#32)] 0x00000000#32 0b0011#4 0x90BC0011 = result 0x00FFA5A5#32 0x00000000#32 0b0000#4 := by decide +kernel
theorem test_sll :
    alu [(16, 0x80000001#32), (17, 0x55555555#32)] 0x00000000#32 0b1010#4 0x912C2001 = result 0x00000002#32 0x00000000#32 0b1010#4 := by decide +kernel
theorem test_sll_2 :
    alu [(16, 0x12345678#32), (17, 0x00000024#32)] 0x00000000#32 0b1010#4 0x912C0011 = result 0x23456780#32 0x00000000#32 0b1010#4 := by decide +kernel
theorem test_srl :
    alu [(16, 0x80000000#32), (17, 0x55555555#32)] 0x00000000#32 0b1010#4 0x9134201F = result 0x00000001#32 0x00000000#32 0b1010#4 := by decide +kernel
theorem test_srl_2 :
    alu [(16, 0xFFFFFFFF#32), (17, 0xFFFFFFE4#32)] 0x00000000#32 0b1010#4 0x91340011 = result 0x0FFFFFFF#32 0x00000000#32 0b1010#4 := by decide +kernel
theorem test_sra :
    alu [(16, 0x80000000#32), (17, 0x55555555#32)] 0x00000000#32 0b1010#4 0x913C201F = result 0xFFFFFFFF#32 0x00000000#32 0b1010#4 := by decide +kernel
theorem test_sra_2 :
    alu [(16, 0x7FFFFFFF#32), (17, 0x55555555#32)] 0x00000000#32 0b1010#4 0x913C2004 = result 0x07FFFFFF#32 0x00000000#32 0b1010#4 := by decide +kernel
theorem test_add :
    alu [(16, 0x7FFFFFFF#32), (17, 0x55555555#32)] 0x00000000#32 0b0000#4 0x90042001 = result 0x80000000#32 0x00000000#32 0b0000#4 := by decide +kernel
theorem test_addcc :
    alu [(16, 0x7FFFFFFF#32), (17, 0x55555555#32)] 0x00000000#32 0b0000#4 0x90842001 = result 0x80000000#32 0x00000000#32 0b1010#4 := by decide +kernel
theorem test_addcc_2 :
    alu [(16, 0x80000000#32), (17, 0x80000000#32)] 0x00000000#32 0b0000#4 0x90840011 = result 0x00000000#32 0x00000000#32 0b0111#4 := by decide +kernel
theorem test_addx :
    alu [(16, 0x00000001#32), (17, 0x00000002#32)] 0x00000000#32 0b0001#4 0x90440011 = result 0x00000004#32 0x00000000#32 0b0001#4 := by decide +kernel
theorem test_addx_2 :
    alu [(16, 0x00000001#32), (17, 0x00000002#32)] 0x00000000#32 0b1110#4 0x90440011 = result 0x00000003#32 0x00000000#32 0b1110#4 := by decide +kernel
theorem test_addxcc :
    alu [(16, 0xFFFFFFFF#32), (17, 0x00000000#32)] 0x00000000#32 0b0001#4 0x90C40011 = result 0x00000000#32 0x00000000#32 0b0101#4 := by decide +kernel
theorem test_addxcc_2 :
    alu [(16, 0xFFFFFFFF#32), (17, 0xFFFFFFFF#32)] 0x00000000#32 0b0001#4 0x90C40011 = result 0xFFFFFFFF#32 0x00000000#32 0b1001#4 := by decide +kernel
theorem test_sub :
    alu [(16, 0x00000000#32), (17, 0x55555555#32)] 0x00000000#32 0b0000#4 0x90242001 = result 0xFFFFFFFF#32 0x00000000#32 0b0000#4 := by decide +kernel
theorem test_subcc :
    alu [(16, 0x00000000#32), (17, 0x55555555#32)] 0x00000000#32 0b0000#4 0x90A42001 = result 0xFFFFFFFF#32 0x00000000#32 0b1001#4 := by decide +kernel
theorem test_subcc_2 :
    alu [(16, 0x80000000#32), (17, 0x55555555#32)] 0x00000000#32 0b0000#4 0x90A42001 = result 0x7FFFFFFF#32 0x00000000#32 0b0010#4 := by decide +kernel
theorem test_subx :
    alu [(16, 0x00000005#32), (17, 0x00000002#32)] 0x00000000#32 0b0001#4 0x90640011 = result 0x00000002#32 0x00000000#32 0b0001#4 := by decide +kernel
theorem test_subx_2 :
    alu [(16, 0x00000005#32), (17, 0x00000002#32)] 0x00000000#32 0b0000#4 0x90640011 = result 0x00000003#32 0x00000000#32 0b0000#4 := by decide +kernel
theorem test_subxcc :
    alu [(16, 0x00000000#32), (17, 0x00000000#32)] 0x00000000#32 0b0001#4 0x90E40011 = result 0xFFFFFFFF#32 0x00000000#32 0b1001#4 := by decide +kernel
theorem test_subxcc_2 :
    alu [(16, 0x80000000#32), (17, 0x00000000#32)] 0x00000000#32 0b0001#4 0x90E40011 = result 0x7FFFFFFF#32 0x00000000#32 0b0010#4 := by decide +kernel
theorem test_taddcc :
    alu [(16, 0x00000004#32), (17, 0x00000008#32)] 0x00000000#32 0b0000#4 0x91040011 = result 0x0000000C#32 0x00000000#32 0b0000#4 := by decide +kernel
theorem test_taddcc_2 :
    alu [(16, 0x00000004#32), (17, 0x55555555#32)] 0x00000000#32 0b0000#4 0x91042003 = result 0x00000007#32 0x00000000#32 0b0010#4 := by decide +kernel
theorem test_taddcctv :
    alu [(16, 0x00000004#32), (17, 0x00000008#32)] 0x00000000#32 0b1111#4 0x91140011 = result 0x0000000C#32 0x00000000#32 0b0000#4 := by decide +kernel
theorem test_taddcctv_2 :
    (alu [(16, 0x00000004#32), (17, 0x55555555#32)] 0x00000000#32 0b0101#4 0x9114200F) = trapped 0x00000000#32 0b0101#4 0x0A#8 := by decide +kernel
theorem test_tsubcc :
    alu [(16, 0x00000008#32), (17, 0x00000004#32)] 0x00000000#32 0b0000#4 0x910C0011 = result 0x00000004#32 0x00000000#32 0b0000#4 := by decide +kernel
theorem test_tsubcc_2 :
    alu [(16, 0x80000000#32), (17, 0x00000004#32)] 0x00000000#32 0b0000#4 0x910C0011 = result 0x7FFFFFFC#32 0x00000000#32 0b0010#4 := by decide +kernel
theorem test_tsubcctv :
    alu [(16, 0x00000008#32), (17, 0x00000004#32)] 0x00000000#32 0b1111#4 0x911C0011 = result 0x00000004#32 0x00000000#32 0b0000#4 := by decide +kernel
theorem test_tsubcctv_2 :
    (alu [(16, 0x00000008#32), (17, 0x55555555#32)] 0x00000000#32 0b1010#4 0x911C200F) = trapped 0x00000000#32 0b1010#4 0x0A#8 := by decide +kernel
theorem test_mulscc :
    alu [(16, 0x00000000#32), (17, 0x9ABCDEF0#32)] 0x12345678#32 0b0100#4 0x91240011 = result 0x00000000#32 0x091A2B3C#32 0b0100#4 := by decide +kernel
theorem test_mulscc_2 :
    alu [(16, 0x00000005#32), (17, 0x00000005#32)] 0x00000004#32 0b0000#4 0x91240011 = result 0x00000002#32 0x80000002#32 0b0000#4 := by decide +kernel
theorem test_umul :
    alu [(16, 0xFFFFFFFF#32), (17, 0x55555555#32)] 0x00000000#32 0b1111#4 0x9054200F = result 0xFFFFFFF1#32 0x0000000E#32 0b1111#4 := by decide +kernel
theorem test_umul_2 :
    alu [(16, 0xFFFFFF83#32), (17, 0x55555555#32)] 0x00000000#32 0b0000#4 0x90542002 = result 0xFFFFFF06#32 0x00000001#32 0b0000#4 := by decide +kernel
theorem test_smul :
    alu [(16, 0xFFFFFFFF#32), (17, 0x55555555#32)] 0x00000000#32 0b1111#4 0x905C200F = result 0xFFFFFFF1#32 0xFFFFFFFF#32 0b1111#4 := by decide +kernel
theorem test_smul_2 :
    alu [(16, 0x80000000#32), (17, 0x80000000#32)] 0x00000000#32 0b0000#4 0x905C0011 = result 0x00000000#32 0x40000000#32 0b0000#4 := by decide +kernel
theorem test_umulcc :
    alu [(16, 0x80000000#32), (17, 0x55555555#32)] 0x00000000#32 0b1111#4 0x90D42002 = result 0x00000000#32 0x00000001#32 0b0100#4 := by decide +kernel
theorem test_umulcc_2 :
    alu [(16, 0x00010000#32), (17, 0x00008000#32)] 0x00000000#32 0b0011#4 0x90D40011 = result 0x80000000#32 0x00000000#32 0b1000#4 := by decide +kernel
theorem test_smulcc :
    alu [(16, 0xFFFFFFFF#32), (17, 0x55555555#32)] 0x00000000#32 0b0111#4 0x90DC2001 = result 0xFFFFFFFF#32 0xFFFFFFFF#32 0b1000#4 := by decide +kernel
theorem test_smulcc_2 :
    alu [(16, 0x00000000#32), (17, 0x00012345#32)] 0x00000009#32 0b1011#4 0x90DC0011 = result 0x00000000#32 0x00000000#32 0b0100#4 := by decide +kernel
theorem test_udiv :
    alu [(16, 0x00000064#32), (17, 0x55555555#32)] 0x00000000#32 0b1010#4 0x9074200F = result 0x00000006#32 0x00000000#32 0b1010#4 := by decide +kernel
theorem test_udiv_2 :
    (alu [(16, 0x00000007#32), (17, 0x00000000#32)] 0x00000000#32 0b0101#4 0x90740011) = trapped 0x00000000#32 0b0101#4 0x2A#8 := by decide +kernel
theorem test_sdiv :
    alu [(16, 0x00000003#32), (17, 0x55555555#32)] 0x00000000#32 0b0000#4 0x907C2002 = result 0x00000001#32 0x00000000#32 0b0000#4 := by decide +kernel
theorem test_sdiv_2 :
    (alu [(16, 0x00000001#32), (17, 0x00000000#32)] 0x00000000#32 0b1111#4 0x907C0011) = trapped 0x00000000#32 0b1111#4 0x2A#8 := by decide +kernel
theorem test_udivcc :
    alu [(16, 0x00000000#32), (17, 0x00000002#32)] 0x00000002#32 0b0101#4 0x90F40011 = result 0xFFFFFFFF#32 0x00000002#32 0b1010#4 := by decide +kernel
theorem test_udivcc_2 :
    (alu [(16, 0x00000001#32), (17, 0x00000000#32)] 0x00000000#32 0b1001#4 0x90F40011) = trapped 0x00000000#32 0b1001#4 0x2A#8 := by decide +kernel
theorem test_sdivcc :
    alu [(16, 0x00000006#32), (17, 0xFFFFFFFD#32)] 0x00000000#32 0b0111#4 0x90FC0011 = result 0xFFFFFFFE#32 0x00000000#32 0b1000#4 := by decide +kernel
theorem test_sdivcc_2 :
    (alu [(16, 0x00000001#32), (17, 0x55555555#32)] 0x00000000#32 0b0110#4 0x90FC2000) = trapped 0x00000000#32 0b0110#4 0x2A#8 := by decide +kernel

theorem test_sethi : (ran base 0x111FFFFF).r 8 = 0x7FFFFC00#32 := by decide +kernel
theorem test_nop : (ran base 0x01000000).pc = 0x104#32 ∧ (ran base 0x01000000).npc = 0x108#32 := by decide +kernel

/-! Loads, stores and atomics: V-LS1 to V-LS68. -/

/-- The memory and registers of 95 section 2.1. -/
def ls : State :=
  given [(8, 0x40000100#32), (9, 0x12345678#32), (10, 0xAAAAAAAA#32), (11, 0xBBBBBBBB#32), (1, 0x0000CAFE#32)]
    ((((base.putWord 0x40000100 0x80817F01#32 0).putWord 0x40000104 0x11111111#32 0).putWord 0x40000108 0x22222222#32 0).putWord
      0x4000010C 0xFFFE8000#32 0)
def loaded (w : Nat) (n : RegNum) : Word := (ran ls w).r n
def stored (w : Nat) : Word × Word := ((ran ls w).wordAt 0x40000100, (ran ls w).wordAt 0x40000104)

theorem test_ldsb : loaded 0xD24A0000 9 = 0xFFFFFF80#32 := by decide +kernel
theorem test_ldub : loaded 0xD20A2003 9 = 0x00000001#32 := by decide +kernel
theorem test_ldsh : loaded 0xD2520000 9 = 0xFFFF8081#32 := by decide +kernel
theorem test_lduh : loaded 0xD2122002 9 = 0x00007F01#32 := by decide +kernel
theorem test_ld : loaded 0xD4022008 10 = 0x22222222#32 := by decide +kernel
theorem test_ld_misaligned : took (ran ls 0xD2022001) 0x07 = true := by decide +kernel
theorem test_ldd : loaded 0xD41A0000 10 = 0x80817F01#32 ∧ loaded 0xD41A0000 11 = 0x11111111#32 := by decide +kernel
theorem test_ldd_g0 : loaded 0xC01A0000 1 = 0x11111111#32 ∧ loaded 0xC01A0000 0 = 0 := by decide +kernel
theorem test_stb : stored 0xD22A2001 = (0x80787F01#32, 0x11111111#32) := by decide +kernel
theorem test_sth : stored 0xD2322002 = (0x80815678#32, 0x11111111#32) := by decide +kernel
theorem test_st : stored 0xD2220000 = (0x12345678#32, 0x11111111#32) := by decide +kernel
theorem test_st_protected : took (ran { ls with dev := { ls.dev with wpr1 := 0x80000000#32 ||| 0xFFFF#32 } } 0xD2220000) 0x2B = true := by
  decide +kernel
theorem test_std : stored 0xD43A0000 = (0xAAAAAAAA#32, 0xBBBBBBBB#32) := by decide +kernel
theorem test_std_odd : took (ran ls 0xD63A0000) 0x02 = true := by decide +kernel
theorem test_ldstub : loaded 0xD26A2003 9 = 0x01#32 ∧ stored 0xD26A2003 = (0x80817FFF#32, 0x11111111#32) := by decide +kernel
theorem test_swap : loaded 0xD27A0000 9 = 0x80817F01#32 ∧ stored 0xD27A0000 = (0x12345678#32, 0x11111111#32) := by decide +kernel
theorem test_lda : loaded 0xD2820360 9 = 0x80817F01#32 := by decide +kernel
theorem test_lda_user : took (ran { ls with psr := { ls.psr with s := false } } 0xD2822000) 0x03 = true := by decide +kernel
theorem test_lduba : loaded 0xD28A0020 9 = 0x00000080#32 := by decide +kernel
theorem test_lduha : loaded 0xD2920020 9 = 0x00008081#32 := by decide +kernel
theorem test_ldsba : loaded 0xD2CA0160 9 = 0xFFFFFF80#32 := by decide +kernel
theorem test_ldsha : loaded 0xD2D20140 9 = 0xFFFF8081#32 := by decide +kernel
theorem test_ldda : loaded 0xD49A0160 10 = 0x80817F01#32 ∧ loaded 0xD49A0160 11 = 0x11111111#32 := by decide +kernel
theorem test_sta : stored 0xD2A20160 = (0x12345678#32, 0x11111111#32) := by decide +kernel
theorem test_sta_flush :
    (ran { ls with icache := { ls.icache with tags := [(0, { val := 0xF00#32, dflip := 0, pflip := 0 })] } } 0xC0A000A0).icache.tags = [] := by
  decide +kernel
theorem test_stba : stored 0xD2AA0160 = (0x78817F01#32, 0x11111111#32) := by decide +kernel
theorem test_stha : stored 0xD2B20160 = (0x56787F01#32, 0x11111111#32) := by decide +kernel
theorem test_stda : stored 0xD4BA0160 = (0xAAAAAAAA#32, 0xBBBBBBBB#32) := by decide +kernel
theorem test_ldstuba : loaded 0xD2EA0140 9 = 0x80#32 ∧ stored 0xD2EA0140 = (0xFF817F01#32, 0x11111111#32) := by decide +kernel
theorem test_swapa : loaded 0xD2FA00C0 9 = 0x80817F01#32 ∧ stored 0xD2FA00C0 = (0x80817F01#32, 0x11111111#32) := by decide +kernel
theorem test_ld_unassigned : took (ran (given [(8, 0xA0000000#32)] ls) 0xD2020000) 0x09 = true := by decide +kernel
theorem test_ld_pcr : (ran (given [(8, 0x80000024#32)] ls) 0xD2020000).r 9 = 0x7277BBDD#32 := by decide +kernel
theorem test_st_iforce : (ran (given [(8, 0x80000098#32), (9, 0x0000FFFF#32)] ls) 0xD2220000).dev.iforce = 0xFFFE#16 := by decide +kernel

/-! Control transfer: the tables of 95 section 2.2, V-BR, V-CJ, V-W, V-RT, V-T. -/

/-- At pc 0x40000100, as 95 sections 2.2 to 2.6 have it. -/
def ct : State := { base with pc := 0x40000100#32, npc := 0x40000104#32 }

/-- The branch is taken, in each of the 16 states of NZVC, 0000 to 1111, or the four of fcc. -/
def takenRow (i : Bool → BitVec 22 → Instr) (states : List State) : List Bool := states.map fun s => match exec (i false 4) s with
  | .next t => t.npc == 0x40000110#32
  | _ => false
def trapRow (i : RegNum → TrapArg → Instr) (states : List State) : List Bool := states.map fun s => match exec (i 0 (.imm 3)) s with
  | .next t => t.tt == 0x83#8
  | _ => false
def iccStates : List State := (List.range 16).map fun k => withNzvc (BitVec.ofNat 4 k) ct
def fccStates : List State := (List.range 4).map fun k => { ct with fsr := { ct.fsr with fcc := BitVec.ofNat 2 k } }
/-- The bits of a row of the table, left to right. -/
def bitsOf (n w : Nat) : List Bool := (List.range n).map fun k => w.testBit (n - 1 - k)

theorem test_bn : takenRow .bn iccStates = bitsOf 16 0b0000000000000000 := by decide +kernel
theorem test_tn_row : trapRow .tn iccStates = bitsOf 16 0b0000000000000000 := by decide +kernel
theorem test_be : takenRow .be iccStates = bitsOf 16 0b0000111100001111 := by decide +kernel
theorem test_te_row : trapRow .te iccStates = bitsOf 16 0b0000111100001111 := by decide +kernel
theorem test_ble : takenRow .ble iccStates = bitsOf 16 0b0011111111001111 := by decide +kernel
theorem test_tle_row : trapRow .tle iccStates = bitsOf 16 0b0011111111001111 := by decide +kernel
theorem test_bl : takenRow .bl iccStates = bitsOf 16 0b0011001111001100 := by decide +kernel
theorem test_tl_row : trapRow .tl iccStates = bitsOf 16 0b0011001111001100 := by decide +kernel
theorem test_bleu : takenRow .bleu iccStates = bitsOf 16 0b0101111101011111 := by decide +kernel
theorem test_tleu_row : trapRow .tleu iccStates = bitsOf 16 0b0101111101011111 := by decide +kernel
theorem test_bcs : takenRow .bcs iccStates = bitsOf 16 0b0101010101010101 := by decide +kernel
theorem test_tcs_row : trapRow .tcs iccStates = bitsOf 16 0b0101010101010101 := by decide +kernel
theorem test_bneg : takenRow .bneg iccStates = bitsOf 16 0b0000000011111111 := by decide +kernel
theorem test_tneg_row : trapRow .tneg iccStates = bitsOf 16 0b0000000011111111 := by decide +kernel
theorem test_bvs : takenRow .bvs iccStates = bitsOf 16 0b0011001100110011 := by decide +kernel
theorem test_tvs_row : trapRow .tvs iccStates = bitsOf 16 0b0011001100110011 := by decide +kernel
theorem test_ba : takenRow .ba iccStates = bitsOf 16 0b1111111111111111 := by decide +kernel
theorem test_ta_row : trapRow .ta iccStates = bitsOf 16 0b1111111111111111 := by decide +kernel
theorem test_bne : takenRow .bne iccStates = bitsOf 16 0b1111000011110000 := by decide +kernel
theorem test_tne_row : trapRow .tne iccStates = bitsOf 16 0b1111000011110000 := by decide +kernel
theorem test_bg : takenRow .bg iccStates = bitsOf 16 0b1100000000110000 := by decide +kernel
theorem test_tg_row : trapRow .tg iccStates = bitsOf 16 0b1100000000110000 := by decide +kernel
theorem test_bge : takenRow .bge iccStates = bitsOf 16 0b1100110000110011 := by decide +kernel
theorem test_tge_row : trapRow .tge iccStates = bitsOf 16 0b1100110000110011 := by decide +kernel
theorem test_bgu : takenRow .bgu iccStates = bitsOf 16 0b1010000010100000 := by decide +kernel
theorem test_tgu_row : trapRow .tgu iccStates = bitsOf 16 0b1010000010100000 := by decide +kernel
theorem test_bcc : takenRow .bcc iccStates = bitsOf 16 0b1010101010101010 := by decide +kernel
theorem test_tcc_row : trapRow .tcc iccStates = bitsOf 16 0b1010101010101010 := by decide +kernel
theorem test_bpos : takenRow .bpos iccStates = bitsOf 16 0b1111111100000000 := by decide +kernel
theorem test_tpos_row : trapRow .tpos iccStates = bitsOf 16 0b1111111100000000 := by decide +kernel
theorem test_bvc : takenRow .bvc iccStates = bitsOf 16 0b1100110011001100 := by decide +kernel
theorem test_tvc_row : trapRow .tvc iccStates = bitsOf 16 0b1100110011001100 := by decide +kernel
theorem test_fbn : takenRow .fbn fccStates = bitsOf 4 0b0000 := by decide +kernel
theorem test_fba : takenRow .fba fccStates = bitsOf 4 0b1111 := by decide +kernel
theorem test_fbne : takenRow .fbne fccStates = bitsOf 4 0b0111 := by decide +kernel
theorem test_fbe : takenRow .fbe fccStates = bitsOf 4 0b1000 := by decide +kernel
theorem test_fblg : takenRow .fblg fccStates = bitsOf 4 0b0110 := by decide +kernel
theorem test_fbue : takenRow .fbue fccStates = bitsOf 4 0b1001 := by decide +kernel
theorem test_fbul : takenRow .fbul fccStates = bitsOf 4 0b0101 := by decide +kernel
theorem test_fbge : takenRow .fbge fccStates = bitsOf 4 0b1010 := by decide +kernel
theorem test_fbl : takenRow .fbl fccStates = bitsOf 4 0b0100 := by decide +kernel
theorem test_fbuge : takenRow .fbuge fccStates = bitsOf 4 0b1011 := by decide +kernel
theorem test_fbug : takenRow .fbug fccStates = bitsOf 4 0b0011 := by decide +kernel
theorem test_fble : takenRow .fble fccStates = bitsOf 4 0b1100 := by decide +kernel
theorem test_fbg : takenRow .fbg fccStates = bitsOf 4 0b0010 := by decide +kernel
theorem test_fbule : takenRow .fbule fccStates = bitsOf 4 0b1101 := by decide +kernel
theorem test_fbu : takenRow .fbu fccStates = bitsOf 4 0b0001 := by decide +kernel
theorem test_fbo : takenRow .fbo fccStates = bitsOf 4 0b1110 := by decide +kernel

theorem test_branch_annul : (ran (withNzvc 0b0100 ct) 0x32800004).pc = 0x40000108#32 ∧ (ran ct 0x30800004).pc = 0x40000110#32 := by
  decide +kernel
theorem test_branch_back : (ran ct 0x12BFFFFF).npc = 0x400000FC#32 := by decide +kernel
theorem test_fb_disabled : took (ran { ct with psr := { ct.psr with ef := false } } 0x03800004) 0x04 = true := by decide +kernel
theorem test_call : (ran ct 0x60000000).npc = 0xC0000100#32 ∧ (ran ct 0x60000000).r 15 = 0x40000100#32 := by decide +kernel
theorem test_jmpl :
    let t := ran (given [(8, 0x40000400#32)] ct) 0x91C20000
    t.npc = 0x40000400#32 ∧ t.r 8 = 0x40000100#32 := by decide +kernel
theorem test_jmpl_misaligned : took (ran (given [(8, 0x40000200#32), (9, 5#32)] ct) 0x93C22002) 0x07 = true := by decide +kernel

def win (cwp : BitVec 3) (wim : BitVec 8) : State := { ct with wim := wim, psr := { ct.psr with cwp := cwp } }
theorem test_save :
    let t := ran (given [(16, 3#32), (17, 4#32), (18, 9#32)] (win 5 1)) 0xA5E40011
    t.psr.cwp = 4 ∧ t.r 18 = 7#32 ∧ (old t).r 18 = 9#32 := by decide +kernel
theorem test_save_overflow : took (ran (win 0 0x80) 0x81E00000) 0x05 = true ∧ (ran (win 0 0x80) 0x81E00000).psr.cwp = 7 := by
  decide +kernel
theorem test_restore :
    let t := ran (given [(24, 10#32)] (win 4 2)) 0x91EE2001
    t.psr.cwp = 5 ∧ t.r 8 = 11#32 := by decide +kernel
theorem test_restore_underflow : took (ran (win 7 1) 0x81E80000) 0x06 = true := by decide +kernel

def rt (s ps et : Bool) (cwp : BitVec 3) (wim : BitVec 8) : State :=
  given [(18, 0x40000104#32)]
    { base with pc := 0x40002010#32, npc := 0x40000100#32, wim := wim, psr := { base.psr with s := s, ps := ps, et := et, cwp := cwp } }
theorem test_rett :
    let t := ran (rt true false false 2 1) 0x81CC8000
    t.psr.cwp = 3 ∧ t.psr.s = false ∧ t.psr.et = true ∧ t.pc = 0x40000100#32 ∧ t.npc = 0x40000104#32 := by decide +kernel
theorem test_rett_window :
    let t := ran (rt true false false 2 8) 0x81CCA002
    t.errorMode = true ∧ t.tt = 0x06#8 ∧ t.psr.cwp = 2 := by decide +kernel

theorem test_ta :
    let t := ran (given [(16, 0x1234#32), (17, 0x0F#32)] (win 3 0)) 0x91D40011
    took t 0xC3 = true ∧ t.psr.cwp = 2 ∧ t.r 17 = 0x40000100#32 ∧ t.r 18 = 0x40000104#32 := by decide +kernel

/-! State registers, UNIMP, STBAR, FLUSH, coprocessor: V-SR, V-M. -/

theorem test_reset_psr : psrWord State.reset.psr = 0xB3021080#32 := by decide
theorem test_rdy : (ran { base with y := 0xDEADBEEF#32, psr := { base.psr with s := false } } 0x91400000).r 8 = 0xDEADBEEF#32 := by decide +kernel
theorem test_rdpsr :
    (ran (withNzvc 0b1010 { base with psr := { base.psr with pil := 5, ps := true, cwp := 6 } }) 0x91480000).r 8 = 0xB3A015E6#32 := by
  decide +kernel
theorem test_rdpsr_user : took (ran { base with psr := { base.psr with s := false } } 0x91480000) 0x03 = true := by decide +kernel
theorem test_rdwim : (ran { base with wim := 2 } 0x91500000).r 8 = 2#32 := by decide +kernel
theorem test_rdtbr : (ran { base with tt := 0x84 } 0x91580000).r 8 = 0x40002840#32 := by decide +kernel
theorem test_rdasr : (ran base 0x91440000).r 8 = 0xF0000000#32 := by decide +kernel
theorem test_rdasr_absent : took (ran base 0x9144C000) 0x02 = true := by decide +kernel
theorem test_stbar : (ran { base with y := 7 } 0x8143C000).y = 7 ∧ (ran base 0x8143C000).pc = 0x104#32 := by decide +kernel
theorem test_wry : (ran (given [(16, 0xFF00FF00#32), (17, 0x0F0F0F0F#32)] base) 0x81840011).y = 0xF00FF00F#32 := by decide +kernel
theorem test_wrpsr : psrWord (ran (given [(16, 0xFFFFFFE7#32)] base) 0x818C0000).psr = 0xB3F01FE7#32 := by decide +kernel
theorem test_wrpsr_illegal : took (ran (given [(16, 0x00000088#32)] base) 0x818C0000) 0x02 = true := by decide +kernel
theorem test_wrwim : (ran (given [(16, 0x000000FD#32)] base) 0x81943FFF).wim = 2 := by decide +kernel
theorem test_wrtbr :
    let t := ran (given [(16, 0x40002FFF#32)] { base with tba := 0, tt := 0x84 }) 0x819C0000
    t.tba = 0x40002#20 ∧ t.tt = 0x84#8 := by decide +kernel
theorem test_wrasr :
    let t := ran (given [(16, 0x40000101#32)] base) 0xB1840000
    (t.wp.get 0).waddr = 0x10000040#30 ∧ (t.wp.get 0).ifEn = true := by decide +kernel
theorem test_wrasr16 : asr16Word (ran (given [(9, 0xA030FFFF#32)] base) 0xA1824000).asr16 = 0xA0300000#32 := by decide +kernel
theorem test_unimp : took (ran base 0x00000123) 0x02 = true := by decide +kernel
theorem test_flush :
    (ran { base with dcache := { base.dcache with tags := [(5, { val := 0xF00#32, dflip := 0, pflip := 0 })] } } 0x81DA2004).dcache.tags = [] := by
  decide +kernel
theorem test_coprocessor :
    [0x11C00002, 0x81B00000, 0x81B80000, 0xC1820000, 0xC18A0000, 0xC19A0000, 0xC1A20000, 0xC1AA0000, 0xC1BA0000, 0xC1B20000].all
      (fun w => took (ran base w) 0x24) = true := by decide +kernel
theorem test_unassigned :
    [0x00400000, 0x01400000, 0x904C0011, 0x906C0011, 0x90CC0011, 0x91640011, 0x917C0011, 0xD0440000, 0xD0F40000, 0xD1940000, 0xD1FC0000].all
      (fun w => took (ran base w) 0x02) = true := by decide +kernel
def refusedMac : Result → Bool
  | .refused r => r == .macEncoding
  | _ => false
theorem test_mac : refusedMac (exec (.mac3e 8 8 (.reg 17)) base) && refusedMac (exec (.mac3f 8 8 (.reg 17)) base) = true := by decide +kernel

/-! Floating point: V-F. The destination is f2 (f4 and f5 for doubles), the operands f0 and f1 (f0 to f3). -/

/-- FSR word before; the trap type if any, f2 (f4, f5), FSR word after. -/
def fp (fsr : Word) (l : List (RegNum × Word)) (w : Nat) (dst : List RegNum) : Option (BitVec 8) × List Word × Word :=
  let t := ran (givenF l { base with fsr := fsrLoaded base.fsr fsr }) w
  (if t.trapped then some t.tt else none, dst.map t.f, fsrWord t.fsr)

theorem test_fadds :
    fp 0x00000000#32 [(0, 0x3F800000#32), (1, 0x33800000#32)] 0x85A00821 [2] = (none, [0x3F800000#32], 0x00000021#32) := by decide +kernel
theorem test_fadds_trap :
    fp 0x08000000#32 [(0, 0x7F800000#32), (1, 0xFF800000#32)] 0x85A00821 [2] = (some 0x08, [0x00000000#32], 0x08004010#32) := by decide +kernel
theorem test_fsubs :
    fp 0xC0000000#32 [(0, 0x3F800000#32), (1, 0x3F800000#32)] 0x85A008A1 [2] = (none, [0x80000000#32], 0xC0000000#32) := by decide +kernel
theorem test_fmuls :
    fp 0x00000000#32 [(0, 0x00800000#32), (1, 0x00800000#32)] 0x85A00921 [2] = (none, [0x00000000#32], 0x000000A5#32) := by decide +kernel
theorem test_fmuls_underflow :
    fp 0x02000000#32 [(0, 0x00800000#32), (1, 0x3F000000#32)] 0x85A00921 [2] = (some 0x08, [0x00000000#32], 0x02004004#32) := by decide +kernel
theorem test_fdivs :
    fp 0x40000000#32 [(0, 0x3F800000#32), (1, 0x40400000#32)] 0x85A009A1 [2] = (none, [0x3EAAAAAA#32], 0x40000021#32) := by decide +kernel
theorem test_fdivs_zero :
    fp 0x00000000#32 [(0, 0x3F800000#32), (1, 0x80000000#32)] 0x85A009A1 [2] = (none, [0xFF800000#32], 0x00000042#32) := by decide +kernel
theorem test_fsqrts :
    fp 0x80000000#32 [(1, 0x40000000#32)] 0x85A00521 [2] = (none, [0x3FB504F4#32], 0x80000021#32) := by decide +kernel
theorem test_fsqrts_invalid :
    fp 0x00000000#32 [(1, 0xBF800000#32)] 0x85A00521 [2] = (none, [0x7FFFFFFF#32], 0x00000210#32) := by decide +kernel
theorem test_fitos :
    fp 0x00000000#32 [(1, 0x01000003#32)] 0x85A01881 [2] = (none, [0x4B800002#32], 0x00000021#32) := by decide +kernel
theorem test_fstoi :
    fp 0x80000000#32 [(1, 0x40200000#32)] 0x85A01A21 [2] = (none, [0x00000002#32], 0x80000021#32) := by decide +kernel
theorem test_fstoi_large :
    fp 0x00000000#32 [(1, 0x4F000000#32)] 0x85A01A21 [2] = (none, [0x7FFFFFFF#32], 0x00000210#32) := by decide +kernel
theorem test_fdtos :
    fp 0x40000000#32 [(0, 0x7E37E43C#32), (1, 0x8800759C#32)] 0x85A018C0 [2] = (none, [0x7F7FFFFF#32], 0x40000129#32) := by decide +kernel
theorem test_faddd :
    fp 0x00000000#32 [(0, 0x3FF00000#32), (1, 0x00000000#32), (2, 0x3CA00000#32), (3, 0x00000000#32)] 0x89A00842 [4, 5] = (none, [0x3FF00000#32, 0x00000000#32], 0x00000021#32) := by decide +kernel
theorem test_faddd_odd :
    fp 0x00000000#32 [(0, 0x3FF00000#32), (1, 0x00000000#32), (2, 0x3CA00000#32), (3, 0x00000000#32)] 0x89A04842 [4, 5] = (some 0x08, [0x00000000#32, 0x00000000#32], 0x00018000#32) := by decide +kernel
theorem test_fmovs :
    fp 0x00000021#32 [(1, 0x7F800001#32)] 0x85A00021 [2] = (none, [0x7F800001#32], 0x00000020#32) := by decide +kernel
theorem test_fnegs :
    fp 0x00000000#32 [(1, 0x7FC00000#32)] 0x85A000A1 [2] = (none, [0xFFC00000#32], 0x00000000#32) := by decide +kernel
theorem test_fabss :
    fp 0x00000000#32 [(1, 0x80000000#32)] 0x85A00121 [2] = (none, [0x00000000#32], 0x00000000#32) := by decide +kernel
theorem test_fcmps :
    fp 0x00000000#32 [(0, 0x7F800001#32), (1, 0x3F800000#32)] 0x81A80A21 [] = (none, [], 0x00000E10#32) := by decide +kernel
theorem test_fcmpes :
    fp 0x08000000#32 [(0, 0x7FC00000#32), (1, 0x3F800000#32)] 0x81A80AA1 [] = (some 0x08, [], 0x08004010#32) := by decide +kernel
theorem test_fcmpd :
    fp 0x00000000#32 [(0, 0x40000000#32), (1, 0x00000000#32), (2, 0x40000000#32), (3, 0x00000000#32)] 0x81A80A42 [] = (none, [], 0x00000000#32) := by decide +kernel
theorem test_fsqrtq :
    fp 0x00000000#32 [(4, 0x3F800000#32)] 0x81A00564 [0] = (some 0x08, [0x00000000#32], 0x0000C000#32) := by decide +kernel
theorem test_fcmpq :
    fp 0x00000000#32 [(4, 0x3F800000#32)] 0x81A80A64 [] = (some 0x08, [], 0x0000C000#32) := by decide +kernel
theorem test_stfsr :
    let t := ran { ls with fsr := { fsrLoaded ls.fsr 0x01000002#32 with ftt := 1 } } 0xC12A0000
    t.wordAt 0x40000100 = 0x01004002#32 ∧ fsrWord t.fsr = 0x01000002#32 := by decide +kernel
theorem test_ldfsr : fsrWord (ran (ls.putWord 0x40000100 0xFFFFFFFF#32 0) 0xC10A0000).fsr = 0xCFC00FFF#32 := by decide +kernel
theorem test_lddf_misaligned : took (ran ls 0xC71A2004) 0x07 = true := by decide +kernel
theorem test_lddf_disabled : took (ran { ls with psr := { ls.psr with ef := false } } 0xC71A2004) 0x04 = true := by decide +kernel
theorem test_stdfq : took (ran base 0xC1320000) 0x08 = true ∧ (ran base 0xC1320000).fsr.ftt = 4 := by decide +kernel
theorem test_stdfq_user : took (ran { base with psr := { base.psr with s := false } } 0xC1320000) 0x03 = true := by decide +kernel

/-! Trap entry, interrupts, power-down, EDAC: V-X, V-I, V-PD, V-E, V-R. -/

theorem test_trap_entry :
    let t := ran { ct with psr := { ct.psr with cwp := 3 } } 0x00000000
    psrWord t.psr = 0xB30010C2#32 ∧ t.r 17 = 0x40000100#32 ∧ t.r 18 = 0x40000104#32 ∧ tbrWord t.tba t.tt = 0x40002020#32 := by decide +kernel
theorem test_error_mode :
    let t := ran { ct with psr := { ct.psr with et := false } } 0x91D02004
    t.errorMode = true ∧ t.pc = 0x40000100#32 ∧ t.tt = 0 := by decide +kernel
theorem test_watchpoint :
    took (ran { ls with wp := ls.wp.set 0 { waddr := 0x10000040#30, ifEn := false, wmask := 0x3FFFFFFF#30, dl := true, ds := false } }
      0xD2022001) 0x0B = true := by decide +kernel

def irq (lm : Word) (p f : BitVec 16) (pil : BitVec 4) : Option (BitVec 8) × BitVec 16 × BitVec 16 :=
  let t := ran { ct with psr := { ct.psr with pil := pil }, dev := { ct.dev with ilevelMask := lm, ipend := p, iforce := f } } 0x01000000
  (if t.trapped then some t.tt else none, t.dev.ipend, t.dev.iforce)
theorem test_interrupt : irq 0x0000FFFE 0x0108 0 0 = (some 0x18, 0x0008, 0) ∧ irq 0x0008FFFE 0x0108 0 0 = (some 0x13, 0x0100, 0) := by
  decide +kernel
theorem test_interrupt_held : irq 0x0008FFFE 0x0108 0 3 = (none, 0x0108, 0) ∧ irq 0x0000FFFE 0x8000 0 15 = (none, 0x8000, 0) := by
  decide +kernel
theorem test_interrupt_forced : irq 0x0000FFFE 0x0100 0x0100 0 = (some 0x18, 0x0100, 0) := by decide +kernel
theorem test_power_down : (ran (given [(8, 0x80000018#32)] ls) 0xC0220000).powerDown = true := by decide +kernel

def sd (mecfg1 : Word) (w : Word) (f : BitVec 39) : State :=
  given [(8, 0x60000000#32)]
    { base.putWord 0x60000000 w f with dev := { base.dev with mcfg2 := base.dev.mcfg2 ||| 0x4000#32, mecfg1 := mecfg1 } }
theorem test_edac_corrected :
    let t := ran (sd 0x00080000 0x87654320#32 1) 0xD2020000
    t.r 9 = 0x87654321#32 ∧ t.wordAt 0x60000000 = 0x87654321#32 ∧ t.flipAt 0x60000000 = 0 := by decide +kernel
theorem test_edac_multiple : took (ran (sd 0x00080000 0x87654322#32 3) 0xD2020000) 0x09 = true := by decide +kernel
theorem test_register_edac :
    let s := given [(8, 0x55555555#32)] base
    let t := ran { s with asr16 := { cb := 0, tcb := 0, cnt := 7 }, ireg := s.ireg.set 8 { data := 0x55555554#32, flip := 1 } } 0x92100008
    t.r 9 = 0x55555555#32 ∧ (t.ireg.get 8).flip = 0 ∧ t.asr16.cnt = 8 := by decide +kernel
theorem test_register_multiple :
    took (ran { base with ireg := base.ireg.set 8 { data := 0, flip := 3 } } 0x92100008) 0x20 = true := by decide +kernel
theorem test_timer_reload :
    let d := prescalerTick { base.dev with tim1 := { val := 0, rld := 2, ctrl := 3 } }
    d.tim1.val = 2 ∧ d.ipend = 0x100#16 := by decide +kernel

/-! ### Witnesses: for each obligation with hypotheses, states and operands that meet them, clause by clause -/

theorem plain_base : Plain base := by unfold Plain RegsClean NoInjection; decide +kernel

theorem plain_given (l : List (RegNum × Word)) : ∀ {s : State}, Plain s → Plain (given l s) := by
  induction l with
  | nil => exact fun h => h
  | cons p rest ih =>
    intro s h
    refine ih ⟨?_, writeR_regsClean h.2.2 h.2.1 _ _, writeR_noInjection h.2.2 _ _⟩
    have hw : (writeR s p.1 p.2).wp = s.wp ∧ (writeR s p.1 p.2).pc = s.pc := by unfold writeR; split <;> exact ⟨rfl, rfl⟩
    have := h.1
    unfold watchFetch at this ⊢
    rw [hw.1, hw.2]; exact this

theorem fclean_base : FregsClean base := by unfold FregsClean; decide +kernel
theorem fpplain_base : FpPlain base := ⟨plain_base, fclean_base, rfl⟩

def isNext : Result → Bool
  | .next _ => true
  | _ => false
theorem exists_next {o : Result} (h : isNext o = true) : ∃ t, o = .next t := by
  cases o with
  | next t => exact ⟨t, rfl⟩
  | fault _ => cases h
  | refused _ => cases h

theorem fclean_given (l : List (RegNum × Word)) : ∀ {s : State}, FregsClean s → FregsClean (given l s) := by
  induction l with
  | nil => exact fun h => h
  | cons p rest ih =>
    intro s h
    refine ih (fun i => ?_)
    have : (writeR s p.1 p.2).freg = s.freg := by unfold writeR; split <;> rfl
    rw [this]; exact h i

theorem canTrap_of {s : State} {tt : BitVec 8} (h : (s.psr.et && !debugOnTrap s tt) = true) : CanTrap s tt := by
  simpa [CanTrap] using h
def idle (s : State) (a : Word) : Bool := !tracing s && !bpBus s false a && !bpBus s true a
theorem idle_of {s : State} {a : Word} (h : idle s a = true) : DsuIdle s a := by simpa [idle, DsuIdle, and_assoc] using h
def ram (s : State) (a : Word) : Bool :=
  decide (areaOf a = .ram) && (ramBank s.dev a).isSome && !busException s && !erbOn s.dev &&
    decide (s.flipAt (wordBase a).toNat = 0) && !cacheOn s.dev .dcache && idle s a
theorem ram_of {s : State} {a : Word} (h : ram s a = true) : PlainRam s a := by
  simpa [ram, idle, PlainRam, DsuIdle, and_assoc] using h
def writable (s : State) (a : Word) : Bool := ram s a && !writeProtected s.dev a && !ewbOn s.dev
theorem writable_of {s : State} {a : Word} (h : writable s a = true) : WritableRam s a := by
  have : ram s a = true ∧ writeProtected s.dev a = false ∧ ewbOn s.dev = false := by simpa [writable, and_assoc] using h
  exact ⟨ram_of this.1, this.2⟩

/-- `base` with r8 holding an address and r16, r17 operands. -/
def at8 (a : Word) : State := given [(8, a), (16, 5#32), (17, 3#32)] base
theorem plain_at8 (a : Word) : Plain (at8 a) := plain_given _ plain_base
theorem fclean_at8 (a : Word) : FregsClean (at8 a) := fclean_given _ fclean_base
theorem noWatch_at8 (a x : Word) (l st : Bool) : NoWatch (at8 a) l st x := by
  cases l <;> cases st <;> rfl
theorem canTrap_at8 (a : Word) (tt : BitVec 8) : CanTrap (at8 a) tt := canTrap_of rfl
theorem canTrap_base (tt : BitVec 8) : CanTrap base tt := canTrap_of rfl
def user : State := { base with psr := { base.psr with s := false } }
theorem plain_user : Plain user := plain_base

theorem witness_StepKeepsInv :
    Sys2Proof.Machine.Inv (base.withFetchWord 32 0x01000000) ∧ ∃ t, step (base.withFetchWord 32 0x01000000) = .next t :=
  ⟨by unfold Sys2Proof.Machine.Inv; decide +kernel, exists_next (by decide +kernel)⟩
theorem witness_UserModeKeepsPrivileged :
    user.psr.s = false ∧ user.debugMode = false ∧ (∃ t, exec .nop user = .next t) ∧ ∃ t, exec (.rdpsr 8) user = .next t :=
  ⟨rfl, rfl, exists_next (by decide +kernel), exists_next (by decide +kernel)⟩
theorem witness_DecodeEncode :
    (Instr.std 30 31 (.imm 0x1FFF)).wellFormed && (Instr.sethi 0 1).wellFormed && (Instr.rdasr 1 15).wellFormed = true := by decide
theorem witness_DecodeWellFormed : decode 0x01000000#32 = .ok .nop ∧ decode 0x01000001#32 = .ok (.sethi 0 1) := by decide +kernel
def noFpu : State := { base with psr := { base.psr with ef := false } }
theorem witness_UnassignedWordsTrap :
    (NoInjection base ∧ CanTrap base ttIllegal ∧ CanTrap base ttFpException ∧ base.psr.ef = true ∧ watchFetch base base.pc = false) ∧
      (NoInjection noFpu ∧ CanTrap noFpu ttFpDisabled ∧ noFpu.psr.ef = false) ∧
      ([0x00400000#32, 0x01400000#32].all fun w => opField w = 0 ∧ op2Field w ∈ [1, 3, 5]) ∧
      ([0x80480000#32, 0x81780000#32].all fun w => opField w = 2 ∧ op3Field w ∈ [0x09, 0x2F]) ∧
      ([0xC0400000#32, 0xC1F80000#32].all fun w => opField w = 3 ∧ op3Field w ∈ [0x08, 0x3F]) ∧
      ([0x81A00000#32, 0x81A03FE0#32].all fun w => opField w = 2 ∧ op3Field w = 0x34 ∧ opf w ∈ [0x000, 0x1FF]) ∧
      ([0x81A80000#32, 0x81A83FE0#32].all fun w => opField w = 2 ∧ op3Field w = 0x35 ∧ opf w ∈ [0x000, 0x1FF]) :=
  ⟨⟨plain_base.2.2, canTrap_base _, canTrap_base _, rfl, plain_base.1⟩, ⟨plain_base.2.2, canTrap_of rfl, rfl⟩, by decide +kernel⟩
def nopState : State := base.withFetchWord 32 0x01000000
theorem witness_StepRunsInstruction :
    Runs nopState ∧ PlainFetch nopState.ready ∧ decode (nopState.ready.wordAt nopState.ready.pc.toNat) = .ok .nop := by
  refine ⟨?_, ?_, by decide +kernel⟩
  · unfold Runs; decide +kernel
  · unfold PlainFetch DsuIdle; decide +kernel

def irqState : State := { ct with dev := { ct.dev with ilevelMask := 0x0008FFFE#32, ipend := 0x0108#16 } }
def debugging : State := { ct with pins := { ct.pins with dsuen := true }, dsu := { ct.dsu with ctrl := 0x200#32 } }
theorem witness_InterruptSelection :
    bpIrl irqState.dev = 3 ∧ bpIrl { irqState.dev with ilevelMask := 0xFFFE#32 } = 8 ∧ bpIrl { irqState.dev with ipend := 0 } = 0 ∧
      bpIrl { irqState.dev with ipend := 0x8002#16 } = 15 := by decide +kernel
theorem witness_TrapEntry :
    NoInjection irqState ∧ CanTrap irqState ttIllegal ∧ interruptTaken irqState = true ∧
      debugOnTrap irqState (BitVec.ofNat 8 (0x10 + bpIrl irqState.dev)) = false ∧ bit irqState.dev.ccr 4 = false ∧
      bit irqState.dev.ccr 5 = false ∧ NoInjection debugging ∧ debugOnTrap debugging ttIllegal = true ∧
      debugOnTrap debugging (BitVec.ofNat 8 (0x10 + bpIrl debugging.dev)) = true :=
  ⟨plain_base.2.2, canTrap_of (by decide +kernel), by decide +kernel, by decide +kernel, by decide +kernel, by decide +kernel,
    plain_base.2.2, by decide +kernel, by decide +kernel⟩
theorem witness_ErrorMode :
    let s := { base with psr := { base.psr with et := false } }
    let e := { base with errorMode := true }
    s.psr.et = false ∧ debugOnTrap s ttIllegal = false ∧ e.errorMode = true ∧ e.env = [] ∧ e.dsu.breakReq = false ∧
      ∃ t, step e = .next t :=
  ⟨rfl, by decide +kernel, rfl, rfl, rfl, exists_next (by decide +kernel)⟩
/-- In error mode a step leaves the IU, the FPU and memory alone, and the model clock goes on (60 R646, 70 R840). -/
theorem test_errorMode_clock :
    (match step { base with errorMode := true, clk := 41 } with
      | .next t => t.errorMode && decide (t.cpu = { base.cpu with clk := 42 }) && decide (t.mem = base.mem)
      | _ => false) = true := by decide +kernel
/-- The clock of a single-stepped instruction counts in the time tag, which then stands in debug mode (11 R151, 61 R762). -/
theorem test_single_step_time_tag :
    let d : Dsu := { base.dsu with ctrl := 0x10000#32, stepping := true, timeTag := 5 }
    (match step { nopState with pins := { base.pins with dsuen := true }, dsu := d } with
      | .next t => t.debugMode && decide (t.dsu.timeTag = 4) && decide (t.pc = nopState.npc) && !t.dsu.stepping &&
          (match step t with | .next u => decide (u.dsu.timeTag = 4) | _ => false)
      | _ => false) = true := by decide +kernel
theorem witness_LogicResults : Plain base := plain_base
theorem witness_LogicCcResults : Plain base := plain_base
theorem witness_ShiftResults : Plain (at8 0) := plain_at8 0
theorem witness_AddSubResults : Plain (at8 0) := plain_at8 0
theorem witness_AddSubCcResults : Plain (at8 0) := plain_at8 0
theorem witness_TaggedResults :
    Plain (at8 0) ∧ CanTrap (at8 0) ttTagOverflow ∧ (at8 0).r 16 % 4 ≠ 0 ∧ (at8 0).r 8 % 4 = 0 :=
  ⟨plain_at8 0, canTrap_at8 _ _, by decide +kernel⟩
theorem witness_MulsccResult : Plain (at8 0) := plain_at8 0
theorem witness_MultiplyResults : Plain (at8 0) := plain_at8 0
theorem witness_DivideResults :
    Plain (at8 0) ∧ (at8 0).operand2 (.reg 17) ≠ 0 ∧ (at8 0).operand2 (.reg 8) = 0 ∧ CanTrap (at8 0) ttDivisionByZero :=
  ⟨plain_at8 0, by decide +kernel, by decide +kernel, canTrap_at8 _ _⟩
theorem witness_SethiNopResults : watchFetch base base.pc = false ∧ NoInjection base := ⟨plain_base.1, plain_base.2.2⟩
theorem witness_BranchIccOutcomes : watchFetch ct ct.pc = false ∧ ct.annul = false := by decide +kernel
theorem witness_BranchFccOutcomes : watchFetch ct ct.pc = false ∧ ct.annul = false ∧ ct.psr.ef = true := by decide +kernel
theorem plain_win (c : BitVec 3) (m : BitVec 8) : Plain (win c m) := ⟨rfl, plain_base.2.1, plain_base.2.2⟩
theorem witness_WindowResults :
    (Plain (win 0 0x7F) ∧ (win 0 0x7F).wim.getLsbD ((win 0 0x7F).psr.cwp - 1).toNat = false) ∧
      (Plain (win 0 0x80) ∧ (win 0 0x80).wim.getLsbD ((win 0 0x80).psr.cwp - 1).toNat = true ∧ CanTrap (win 0 0x80) ttWindowOverflow) ∧
      (Plain (win 7 0xFE) ∧ (win 7 0xFE).wim.getLsbD ((win 7 0xFE).psr.cwp + 1).toNat = false) ∧
      Plain (win 7 0x01) ∧ (win 7 0x01).wim.getLsbD ((win 7 0x01).psr.cwp + 1).toNat = true ∧ CanTrap (win 7 0x01) ttWindowUnderflow :=
  ⟨⟨plain_win _ _, by decide +kernel⟩, ⟨plain_win _ _, by decide +kernel, canTrap_of rfl⟩, ⟨plain_win _ _, by decide +kernel⟩,
    plain_win _ _, by decide +kernel, canTrap_of rfl⟩
theorem witness_CallJmplResults :
    Plain (at8 0) ∧ (ea (at8 0) 8 (.imm 4)).toNat % 4 = 0 ∧ ([1#13, 2#13, 3#13].all fun k => (ea (at8 0) 8 (.imm k)).toNat % 4 ≠ 0) ∧
      CanTrap (at8 0) ttNotAligned :=
  ⟨plain_at8 0, by decide +kernel, by decide +kernel, canTrap_at8 _ _⟩
theorem plain_rt (s p e : Bool) (c : BitVec 3) (m : BitVec 8) : Plain (rt s p e c m) :=
  plain_given _ ⟨rfl, plain_base.2.1, plain_base.2.2⟩
theorem witness_RettResults :
    (∀ s p e c m, Plain (rt s p e c m)) ∧
      (let s := rt true false false 2 1
       s.psr.et = false ∧ s.psr.s = true ∧ s.wim.getLsbD (s.psr.cwp + 1).toNat = false ∧ (ea s 18 (.imm 0)).toNat % 4 = 0 ∧
        (ea s 18 (.imm 2)).toNat % 4 ≠ 0 ∧ debugOnTrap s 0x07 = false) ∧
      CanTrap (rt false false true 2 1) ttPrivileged ∧ CanTrap (rt true false true 2 1) ttIllegal ∧
      debugOnTrap (rt false false false 2 1) 0x03 = false ∧
      let s := rt true false false 7 1
      s.psr.et = false ∧ s.psr.s = true ∧ s.wim.getLsbD (s.psr.cwp + 1).toNat = true ∧ debugOnTrap s 0x06 = false :=
  ⟨plain_rt, by decide +kernel, canTrap_of rfl, canTrap_of rfl, by decide +kernel, by decide +kernel⟩
theorem witness_TiccOutcomes : Plain (at8 0) ∧ CanTrap (at8 0) 0x80 ∧ CanTrap (at8 0) 0xFF :=
  ⟨plain_at8 0, canTrap_at8 _ _, canTrap_at8 _ _⟩
theorem witness_ReadStateRegisters : watchFetch base base.pc = false ∧ NoInjection base ∧ base.psr.s = true :=
  ⟨plain_base.1, plain_base.2.2, rfl⟩
theorem witness_WriteStateRegisters :
    Plain (at8 7) ∧ (at8 7).psr.s = true ∧ ((at8 7).r 8 ^^^ (at8 7).operand2 (.imm 0)).toNat % 32 < 8 := ⟨plain_at8 7, by decide +kernel⟩
theorem witness_PrivilegedTraps :
    privileged (.rdasr 8 16) = true ∧ privileged (.wrasr 31 8 (.imm 0)) = true ∧ privileged (.lda 8 8 (.imm 0)) = true ∧
      privileged (.stdfq 8 (.imm 0)) = true ∧ user.psr.s = false ∧ NoInjection user ∧ CanTrap user ttPrivileged :=
  ⟨by decide, by decide, by decide, by decide, rfl, plain_base.2.2, canTrap_of rfl⟩
theorem witness_IllegalStateRegisters :
    Plain (at8 8) ∧ Plain (at8 31) ∧ CanTrap (at8 8) ttIllegal ∧
      (∀ n ∈ ([1, 15, 19, 23] : List RegNum), n ≠ 0 ∧ n ∉ ([16, 17, 18, 24, 25, 26, 27, 28, 29, 30, 31] : List RegNum)) ∧
      (at8 8).psr.s = true ∧ 8 ≤ ((at8 8).r 8 ^^^ (at8 8).operand2 (.imm 0)).toNat % 32 ∧
      8 ≤ ((at8 31).r 8 ^^^ (at8 31).operand2 (.imm 0)).toNat % 32 :=
  ⟨plain_at8 8, plain_at8 31, canTrap_at8 _ _, by decide +kernel⟩
theorem witness_UnimpCoprocessorTraps :
    NoInjection user ∧ CanTrap user ttIllegal ∧ CanTrap user ttCpDisabled ∧ coprocessor (.ldc 1 2 (.imm 0)) = true ∧
      privileged (.ldc 1 2 (.imm 0)) = false ∧ coprocessor (.stdcq 1 2 (.imm 0)) = true ∧ base.psr.s = true ∧ CanTrap base ttCpDisabled :=
  ⟨plain_base.2.2, canTrap_of rfl, canTrap_of rfl, rfl, rfl, rfl, rfl, canTrap_base _⟩
theorem witness_StbarFlushResults : Plain base := plain_base

/-- Addresses at the edges of the RAM of `base`, and at each distance from a doubleword. -/
def ramEdges : List Word := [0x40000000#32, 0x40000001#32, 0x40000002#32, 0x40000003#32, 0x40000004#32, 0x4003FFF8#32]
theorem edges :
    ramEdges.all (fun a => writable (at8 a) a && decide (ea (at8 a) 8 (.imm 0) = a) && decide ((at8 a).r 8 + (at8 a).r 0 = a)) = true := by
  decide +kernel
theorem edge {a : Word} (h : a ∈ ramEdges) : WritableRam (at8 a) a ∧ ea (at8 a) 8 (.imm 0) = a ∧ (at8 a).r 8 + (at8 a).r 0 = a := by
  have := List.all_eq_true.mp edges a h
  simp only [Bool.and_eq_true, decide_eq_true_eq] at this
  exact ⟨writable_of this.1.1, this.1.2, this.2⟩
/-- A doubleword address meets the premises of the doubleword clauses too. -/
def PairAt (a : Word) : Prop := a.toNat % 8 = 0 ∧ WritableRam (at8 a) (a + 4)
theorem pair_low : PairAt 0x40000000#32 := ⟨by decide, writable_of (by decide +kernel)⟩
theorem pair_high : PairAt 0x4003FFF8#32 := ⟨by decide, writable_of (by decide +kernel)⟩

theorem witness_LoadResults :
    (∀ a ∈ ramEdges, let s := at8 a
      Plain s ∧ ea s 8 (.imm 0) = a ∧ PlainRam s a ∧ NoWatch s true false a) ∧ PairAt 0x40000000#32 ∧ PairAt 0x4003FFF8#32 :=
  ⟨fun a h => ⟨plain_at8 a, (edge h).2.1, (edge h).1.1, noWatch_at8 _ _ _ _⟩, pair_low, pair_high⟩
theorem witness_StoreResults :
    (∀ a ∈ ramEdges, let s := at8 a
      Plain s ∧ ea s 8 (.imm 0) = a ∧ WritableRam s a ∧ NoWatch s false true a) ∧ PairAt 0x40000000#32 ∧ PairAt 0x4003FFF8#32 :=
  ⟨fun a h => ⟨plain_at8 a, (edge h).2.1, (edge h).1, noWatch_at8 _ _ _ _⟩, pair_low, pair_high⟩
theorem witness_AtomicResults :
    ∀ a ∈ ramEdges, let s := at8 a
      Plain s ∧ ea s 8 (.imm 0) = a ∧ WritableRam s a ∧ NoWatch s true true a :=
  fun a h => ⟨plain_at8 a, (edge h).2.1, (edge h).1, noWatch_at8 _ _ _ _⟩
theorem witness_AlternateMemoryResults :
    (∀ a ∈ ramEdges, let s := at8 a
      Plain s ∧ s.psr.s = true ∧ s.r 8 + s.r 0 = a ∧ WritableRam s a ∧ NoWatch s true true a ∧ NoWatch s true false a ∧
        NoWatch s false true a) ∧
      PairAt 0x40000000#32 ∧ PairAt 0x4003FFF8#32 ∧
      [0x00#8, 0x04#8, 0x07#8, 0x0B#8, 0xFB#8].all fun asi => asi.extractLsb' 0 4 ∈ ([0, 1, 2, 3, 4, 7, 8, 9, 10, 11] : List (BitVec 4)) :=
  ⟨fun a h => ⟨plain_at8 a, rfl, (edge h).2.2, (edge h).1, noWatch_at8 _ _ _ _, noWatch_at8 _ _ _ _, noWatch_at8 _ _ _ _⟩,
    pair_low, pair_high, by decide +kernel⟩
theorem witness_AlternateFlushResults :
    (∀ a ∈ ramEdges, let s := at8 a
      Plain s ∧ s.psr.s = true ∧ s.r 8 + s.r 0 = a ∧ ReadableRam s a ∧ NoWatch s true true a ∧ NoWatch s true false a ∧ NoWatch s false true a) ∧
      PairAt 0x40000000#32 ∧ (0x05#8).extractLsb' 0 4 = 5#4 ∧ (0xF6#8).extractLsb' 0 4 = 6#4 :=
  ⟨fun a h => ⟨plain_at8 a, rfl, (edge h).2.2, PlainRam.readable (edge h).1.1, noWatch_at8 _ _ _ _, noWatch_at8 _ _ _ _, noWatch_at8 _ _ _ _⟩,
    pair_low, by decide +kernel⟩
theorem witness_AlternateDiagnosticResults :
    (∀ a, let s := at8 a
      Plain s ∧ s.psr.s = true ∧ ∀ x, NoWatch s true true x ∧ NoWatch s true false x ∧ NoWatch s false true x) ∧
      ([0#32, 0x3FFC#32, 0x7FFC#32, 0x8000#32].all fun a => ((at8 a).r 8 + (at8 a).r 0).toNat % 4 = 0) ∧
      ([0#32, 0x3FF8#32, 0x7FF8#32, 0xFFFFFFF8#32].all fun a => ((at8 a).r 8 + (at8 a).r 0).toNat % 8 = 0) ∧ (10#5).toNat % 2 = 0 ∧
      [0x0C#8, 0xFD#8, 0x0E#8, 0x0F#8].map (fun k => k.extractLsb' 0 4) = [12#4, 13#4, 14#4, 15#4] :=
  ⟨fun a => ⟨plain_at8 a, rfl, fun _ => ⟨noWatch_at8 _ _ _ _, noWatch_at8 _ _ _ _, noWatch_at8 _ _ _ _⟩⟩, by decide +kernel, by decide +kernel,
    rfl, by decide +kernel⟩
theorem witness_MisalignedTraps :
    (∀ a, let s := at8 a
      Plain s ∧ CanTrap s ttNotAligned ∧ FregsClean s ∧ s.psr.s = true ∧ s.psr.ef = true ∧
        ∀ x, NoWatch s true true x ∧ NoWatch s true false x ∧ NoWatch s false true x) ∧
      (ea (at8 0x40000001#32) 8 (.reg 0)).toNat % 2 ≠ 0 ∧ (ea (at8 0x40000002#32) 8 (.reg 0)).toNat % 4 ≠ 0 ∧
      (ea (at8 0x40000003#32) 8 (.reg 0)).toNat % 4 ≠ 0 ∧ (ea (at8 0x40000004#32) 8 (.reg 0)).toNat % 8 ≠ 0 :=
  ⟨fun a => ⟨plain_at8 a, canTrap_at8 _ _, fclean_at8 a, rfl, rfl, fun _ => ⟨noWatch_at8 _ _ _ _, noWatch_at8 _ _ _ _, noWatch_at8 _ _ _ _⟩⟩,
    by decide +kernel⟩
theorem witness_IllegalMemoryForms : NoInjection base ∧ CanTrap base ttIllegal ∧ base.psr.s = true ∧ (31 : RegNum).toNat % 2 = 1 :=
  ⟨plain_base.2.2, canTrap_base _, rfl, rfl⟩

/-- WPR1 protects every RAM address. -/
def protectedAt (a : Word) : State := { at8 a with dev := { base.dev with wpr1 := 0xC0000000#32 } }
theorem plain_protectedAt (a : Word) : Plain (protectedAt a) := plain_at8 a
theorem witness_WriteProtectionTraps :
    ([0x40000000#32, 0x7FFFFFF8#32].all fun a =>
      let s := protectedAt a
      ea s 8 (.imm 0) = a ∧ idle s a = true ∧ 0x40000000 ≤ a.toNat ∧ a.toNat < 0x80000000 ∧ s.dev.wpr1.getLsbD 31 = true ∧
        ((a.extractLsb' 15 15 ^^^ s.dev.wpr1.extractLsb' 15 15) &&& s.dev.wpr1.extractLsb' 0 15 = 0 ↔ s.dev.wpr1.getLsbD 30 = true)) ∧
      (∀ a, Plain (protectedAt a) ∧ FpPlain (protectedAt a) ∧ CanTrap (protectedAt a) ttStoreError ∧
        ∀ x, NoWatch (protectedAt a) false true x ∧ NoWatch (protectedAt a) true true x) ∧
      PlainRam (protectedAt 0x40000000#32) 0x40000000#32 :=
  ⟨by decide +kernel, fun a => ⟨plain_at8 a, ⟨plain_at8 a, fclean_at8 a, rfl⟩, canTrap_of rfl,
    fun x => ⟨noWatch_at8 a x false true, noWatch_at8 a x true true⟩⟩,
    ram_of (by decide +kernel)⟩
/-- BEXCN is low and honoured. -/
def failing (a : Word) : State := { at8 a with pins := { base.pins with bexcn := false }, dev := { base.dev with mcfg1 := 0x02000000#32 } }
/-- Fetches go where nothing is, or fail by BEXCN. -/
def astray (pc : Word) : State := { failing 0 with pc := pc, npc := pc + 4 }
theorem witness_UnassignedAddressTraps :
    ([0x80000200#32, 0x8FFFFFF8#32, 0xA0000000#32, 0xBFFFFFF8#32].all fun a =>
      let s := at8 a
      ea s 8 (.imm 0) = a ∧ (0x80000200 ≤ a.toNat ∧ a.toNat < 0x90000000 ∨ 0xA0000000 ≤ a.toNat ∧ a.toNat < 0xC0000000) ∧
        a.toNat % 8 = 0 ∧ idle s a = true ∧ s.dev.ahbStat.getLsbD 8 = false) ∧
      ([0x00000000#32, 0x7FFFFFF8#32].all fun a =>
        let s := failing a
        ea s 8 (.imm 0) = a ∧ s.dev.mcfg1.getLsbD 25 = true ∧ s.pins.bexcn = false ∧ cacheOn s.dev .dcache = false ∧ a.toNat < 0x80000000 ∧
          a.toNat % 8 = 0 ∧ idle s a = true ∧ s.dev.ahbStat.getLsbD 8 = false) ∧
      (∀ a, FpPlain (at8 a) ∧ (∀ x, NoWatch (at8 a) true true x) ∧ CanTrap (at8 a) ttDataAccess ∧ CanTrap (at8 a) ttStoreError) ∧
      (∀ a, FpPlain (failing a) ∧ (∀ x, NoWatch (failing a) true true x) ∧ CanTrap (failing a) ttDataAccess ∧
        CanTrap (failing a) ttStoreError) ∧
      ([0x80000200#32, 0xBFFFFFFC#32, 0x00000000#32, 0x7FFFFFFC#32].all fun a =>
        let s := astray a
        s.errorMode = false ∧ s.debugMode = false ∧ s.powerDown = false ∧ s.annul = false ∧
          bpInstr { skipAnnulled s with trapped := false, powerDown := false } (skipAnnulled s).pc = false ∧ s.ready.pc = a ∧
          cacheOn s.dev .icache = false ∧ idle s.ready a = true ∧ s.ready.psr.et = true ∧ debugOnTrap s.ready ttInstructionAccess = false ∧
          s.ready.asr16.cb ≠ 0b1010#4) :=
  ⟨by decide +kernel, by decide +kernel,
    fun a => ⟨⟨plain_at8 a, fclean_at8 a, rfl⟩, fun _ => noWatch_at8 _ _ _ _, canTrap_at8 _ _, canTrap_at8 _ _⟩,
    fun a => ⟨⟨plain_at8 a, fclean_at8 a, rfl⟩, fun x => noWatch_at8 a x true true, canTrap_of rfl, canTrap_of rfl⟩, by decide +kernel⟩
def flippedReg (f : BitVec 39) : State :=
  { base with ireg := base.ireg.set (regIndex 0 8).val { data := 0, flip := f } (regIndex 0 8).isLt }
def injecting : State := { base with asr16 := { cb := 0b1010#4, tcb := 1, cnt := 0 } }
def flippedFreg (f : BitVec 39) : State :=
  { base with freg := base.freg.set (fregIndex 8).val { data := 0, flip := f } (fregIndex 8).isLt }
theorem witness_RegisterEdac :
    ([1#39 <<< 0, 1#39 <<< 38, 1#39 <<< 0 ||| 1#39 <<< 1, 1#39 <<< 37 ||| 1#39 <<< 38].all fun f =>
        ((flippedReg f).ireg.get (regIndex (flippedReg f).psr.cwp 8)).flip = f ∧ ((flippedFreg f).freg.get (fregIndex 8)).flip = f) ∧
      (∀ f, watchFetch (flippedReg f) (flippedReg f).pc = false ∧ NoInjection (flippedReg f) ∧ CanTrap (flippedReg f) ttRegisterError) ∧
      (∀ f, watchFetch (flippedFreg f) (flippedFreg f).pc = false ∧ NoInjection (flippedFreg f) ∧ (flippedFreg f).psr.ef = true ∧
        CanTrap (flippedFreg f) ttRegisterError) ∧
      watchFetch injecting injecting.pc = false ∧ injecting.asr16.cb = 0b1010#4 :=
  ⟨by decide +kernel, fun _ => ⟨plain_base.1, plain_base.2.2, canTrap_of rfl⟩, fun _ => ⟨plain_base.1, plain_base.2.2, rfl, canTrap_of rfl⟩,
    plain_base.1, rfl⟩
theorem witness_MemoryEdac :
    ([1#39 <<< 0, 1#39 <<< 38, 1#39 <<< 0 ||| 1#39 <<< 1, 1#39 <<< 37 ||| 1#39 <<< 38].all fun f =>
      let s := sd 0x00080000#32 5#32 f
      let x := ea s 8 (.imm 0)
      areaOf x = .ram ∧ x.toNat % 4 = 0 ∧ ((ramBank s.dev x).map fun b => b.en) = some true ∧ busException s = false ∧ erbOn s.dev = false ∧
        ewbOn s.dev = false ∧ cacheOn s.dev .dcache = false ∧ idle s x = true ∧ watchData s true false x = false ∧ s.flipAt x.toNat = f ∧
        (s.psr.et && !debugOnTrap s ttDataAccess) = true) ∧
      ∀ w f, Plain (sd 0x00080000#32 w f) :=
  ⟨by decide +kernel, fun w f => plain_given _ (plain_base : Plain { base.putWord 0x60000000 w f with dev := _ })⟩
theorem fpplain_at8 (a : Word) : FpPlain (at8 a) := ⟨plain_at8 a, fclean_at8 a, rfl⟩
theorem witness_FpLoadResults :
    (∀ a ∈ ramEdges, let s := at8 a
      FpPlain s ∧ ea s 8 (.imm 0) = a ∧ PlainRam s a ∧ NoWatch s true false a) ∧ PairAt 0x40000000#32 ∧ PairAt 0x4003FFF8#32 :=
  ⟨fun a h => ⟨fpplain_at8 a, (edge h).2.1, (edge h).1.1, noWatch_at8 _ _ _ _⟩, pair_low, pair_high⟩
theorem witness_FpStoreResults :
    (∀ a ∈ ramEdges, let s := at8 a
      FpPlain s ∧ ea s 8 (.imm 0) = a ∧ WritableRam s a ∧ NoWatch s false true a) ∧ PairAt 0x40000000#32 ∧ PairAt 0x4003FFF8#32 :=
  ⟨fun a h => ⟨fpplain_at8 a, (edge h).2.1, (edge h).1, noWatch_at8 _ _ _ _⟩, pair_low, pair_high⟩
theorem witness_FpMoveResults : FpPlain base := fpplain_base
def trapping : State := { base with fsr := { base.fsr with tem := 0x1F#5 } }
theorem witness_FpArithmeticResults :
    FpPlain base ∧ base.fsr.tem = 0 ∧ FpPlain trapping ∧ CanTrap trapping ttFpException ∧ trapping.fsr.tem &&& 0b00001#5 ≠ 0 ∧
      (0 : RegNum).toNat % 2 = 0 ∧ (30 : RegNum).toNat % 2 = 0 :=
  ⟨fpplain_base, rfl, fpplain_base, canTrap_of rfl, by decide, rfl, rfl⟩

/-- `at8 a` with cache control `ccr`; `warm` also has 7 cached for the word at `a`, in way 1, with the flips given in its tag and data. -/
def cold (ccr a : Word) : State := { at8 a with dev := { base.dev with ccr := ccr } }
def warm (c : CacheId) (ccr a tagFlip wordFlip : Word) : State :=
  let s := cold ccr a
  let x := (fillWay s c 1 a [(a, 7#32)]).getCache c
  let k := tagKey c 1 (cacheSet c a)
  s.setCache c ((x.putTag k { x.tag k with dflip := tagFlip }).putWord (dataKey 1 a) { val := 7#32, dflip := wordFlip, pflip := 0 })
theorem plain_warm (c : CacheId) (ccr a f g : Word) : Plain (warm c ccr a f g) := by cases c <;> exact plain_at8 a
theorem noWatch_warm (c : CacheId) (ccr a f g x : Word) (l st : Bool) : NoWatch (warm c ccr a f g) l st x := by
  cases c <;> exact noWatch_at8 a x l st
def cached (s : State) (a : Word) : Bool :=
  decide (areaOf a = .ram) && (ramBank s.dev a).isSome && !busException s && !erbOn s.dev &&
    decide (s.flipAt (wordBase a).toNat = 0) && decide (s.dev.ccr1.extractLsb' 11 3 ≠ 0b011#3) && idle s a
theorem cached_of {s : State} {a : Word} (h : cached s a = true) : CachedRam s a := by
  simpa [cached, idle, CachedRam, DsuIdle, and_assoc] using h
/-- The premises every clause about loads and stores has. -/
def Warm (s : State) (a : Word) : Prop :=
  Plain s ∧ ea s 8 (.reg 0) = a ∧ a.toNat % 4 = 0 ∧ CachedRam s a ∧ s.dev.ccr.getLsbD 2 = true ∧ NoWatch s true false a ∧
    NoWatch s false true a ∧ s.psr.s = true ∧ writeProtected s.dev a = false ∧ ewbOn s.dev = false
def warmRest (s : State) (a : Word) : Bool :=
  decide (ea s 8 (.reg 0) = a) && decide (a.toNat % 4 = 0) && cached s a && s.dev.ccr.getLsbD 2 && s.psr.s && !writeProtected s.dev a &&
    !ewbOn s.dev
theorem warm_of {s : State} {a : Word} (hp : Plain s) (hl : NoWatch s true false a) (hs : NoWatch s false true a)
    (h : warmRest s a = true) : Warm s a := by
  simp only [warmRest, Bool.and_eq_true, decide_eq_true_eq, Bool.not_eq_true'] at h
  obtain ⟨⟨⟨⟨⟨⟨h1, h2⟩, h3⟩, h4⟩, h5⟩, h6⟩, h7⟩ := h
  exact ⟨hp, h1, h2, cached_of h3, h4, hl, hs, h5, h6, h7⟩
/-- CCR with the data cache enabled and snooping, or frozen. -/
theorem warm_data {a ccr f g : Word} (ha : a ∈ ([0x40000000#32, 0x4003FFFC#32] : List Word)) (hc : ccr ∈ ([0x0080000C#32, 0x4#32] : List Word))
    (hf : f ∈ ([0, 1] : List Word)) (hg : g ∈ ([0, 1] : List Word)) : Warm (warm .dcache ccr a f g) a := by
  refine warm_of (plain_warm _ _ _ _ _) (noWatch_warm _ _ _ _ _ _ _ _) (noWatch_warm _ _ _ _ _ _ _ _) ?_
  have : ([0x40000000#32, 0x4003FFFC#32].all fun a => [0x0080000C#32, 0x4#32].all fun ccr => [0#32, 1#32].all fun f =>
      [0#32, 1#32].all fun g => warmRest (warm .dcache ccr a f g) a) = true := by decide +kernel
  exact List.all_eq_true.1 (List.all_eq_true.1 (List.all_eq_true.1 (List.all_eq_true.1 this a ha) ccr hc) f hf) g hg
theorem witness_CachedAccessResults_data :
    ([0x40000000#32, 0x4003FFFC#32].all fun a =>
      let s := warm .dcache 0x0080000C#32 a 0 0
      let f := cold 0x4#32 a
      hitWay .dcache s.dcache a = some 1 ∧ badTag s .dcache a 1 = false ∧ badWord s .dcache a 1 = false ∧ s.dev.ccr.getLsbD 23 = true ∧
        badTag (warm .dcache 0x0080000C#32 a 1 0) .dcache a 1 = true ∧ badWord (warm .dcache 0x0080000C#32 a 0 1) .dcache a 1 = true ∧
        hitWay .dcache f.dcache a = none ∧ f.dev.ccr.getLsbD 3 = false ∧ s.dev.ccr.getLsbD 3 = true ∧ warmRest f a = true) ∧
      counterBelowMax .dcache true 0 ∧ counterBelowMax .dcache false 0 ∧
      ([0x00#8, 0xF4#8].map fun k => k.extractLsb' 0 4) = [0#4, 4#4] :=
  ⟨by decide +kernel, by show _ ≠ _; decide, by show _ ≠ _; decide, by decide⟩
def good (s : State) (b : Word) : Bool :=
  match hitWay .dcache s.dcache b with | some w => !badTag s .dcache b w && !badWord s .dcache b w | none => true
theorem good_of {s : State} {b : Word} (h : good s b = true) : GoodIfHeld s b := by
  intro w hw
  rw [good, hw] at h
  simpa using h
/-- The premises of the clauses of other widths: `a` in the word at `b`, no watchpoint, a word held only with good parity. -/
def Lane (s : State) (a : Word) : Prop :=
  Plain s ∧ ea s 8 (.reg 0) = a ∧ CachedRam s a ∧ CachedRam s (wordBase a) ∧ s.dev.ccr.getLsbD 2 = true ∧ s.psr.s = true ∧
    GoodIfHeld s (wordBase a) ∧ NoWatch s true false a ∧ NoWatch s false true a ∧ NoWatch s true true a ∧
    writeProtected s.dev a = false ∧ ewbOn s.dev = false
def laneRest (s : State) (a : Word) : Bool :=
  decide (ea s 8 (.reg 0) = a) && cached s a && cached s (wordBase a) && s.dev.ccr.getLsbD 2 && s.psr.s && good s (wordBase a) &&
    !writeProtected s.dev a && !ewbOn s.dev
theorem lane_of {s : State} {a : Word} (hp : Plain s) (hw : ∀ l st, NoWatch s l st a) (h : laneRest s a = true) : Lane s a := by
  simp only [laneRest, Bool.and_eq_true, decide_eq_true_eq, Bool.not_eq_true'] at h
  obtain ⟨⟨⟨⟨⟨⟨⟨h1, h2⟩, h3⟩, h4⟩, h5⟩, h6⟩, h7⟩, h8⟩ := h
  exact ⟨hp, h1, cached_of h2, cached_of h3, h4, h5, good_of h6, hw _ _, hw _ _, hw _ _, h7, h8⟩
/-- The first and last byte, halfword and doubleword of RAM, the word they lie in cached (hit) and not (miss). -/
theorem witness_CachedAccessResults_widths :
    ∀ a ∈ ([0x40000000#32, 0x40000003#32, 0x40000002#32, 0x4003FFFF#32, 0x4003FFFE#32, 0x4003FFF8#32] : List Word),
      Lane (warm .dcache 0x0080000C#32 a 0 0) a ∧ Lane (cold 0xC#32 a) a := by
  have : ([0x40000000#32, 0x40000003#32, 0x40000002#32, 0x4003FFFF#32, 0x4003FFFE#32, 0x4003FFF8#32].all fun a =>
      laneRest (warm .dcache 0x0080000C#32 a 0 0) a && laneRest (cold 0xC#32 a) a) = true := by decide +kernel
  intro a ha
  have h := List.all_eq_true.1 this a ha
  rw [Bool.and_eq_true] at h
  exact ⟨lane_of (plain_warm _ _ _ _ _) (fun l st => noWatch_warm _ _ _ _ _ _ l st) h.1,
    lane_of (plain_at8 a) (fun l st => noWatch_at8 a _ l st) h.2⟩
theorem witness_CachedAccessResults_dword :
    (∀ a ∈ ([0x40000000#32, 0x4003FFF8#32] : List Word), let s := warm .dcache 0x0080000C#32 a 0 0
      CachedRam s (a + 4) ∧ GoodIfHeld s a ∧ GoodIfHeld s (a + 4) ∧ writeProtected s.dev (a + 4) = false ∧ a.toNat % 8 = 0 ∧
        hitWay .dcache s.dcache a = some 1 ∧ hitWay .dcache s.dcache (a + 4) = none) ∧
      (0 : RegNum).toNat % 2 = 0 ∧ (30 : RegNum).toNat % 2 = 0 ∧ ([0x08#8, 0xFB#8].map fun k => k.extractLsb' 0 4) = [8#4, 11#4] := by
  have : ([0x40000000#32, 0x4003FFF8#32].all fun a => let s := warm .dcache 0x0080000C#32 a 0 0
      cached s (a + 4) && good s a && good s (a + 4) && !writeProtected s.dev (a + 4) && decide (a.toNat % 8 = 0) &&
        decide (hitWay .dcache s.dcache a = some 1) && decide (hitWay .dcache s.dcache (a + 4) = none)) = true := by decide +kernel
  refine ⟨fun a ha => ?_, rfl, rfl, by decide⟩
  have h := List.all_eq_true.1 this a ha
  simp only [Bool.and_eq_true, decide_eq_true_eq, Bool.not_eq_true'] at h
  obtain ⟨⟨⟨⟨⟨⟨h1, h2⟩, h3⟩, h4⟩, h5⟩, h6⟩, h7⟩ := h
  exact ⟨cached_of h1, good_of h2, good_of h3, h4, h5, h6, h7⟩
theorem witness_CachedAccessResults_fetch :
    ([0x40000000#32, 0x4003FFFC#32].all fun a =>
      let s := warm .icache 0x3#32 a 0 0
      let f := cold 0x1#32 a
      (cached s a && cached s (a ^^^ 4) && cached f a && cached f (a ^^^ 4)) = true ∧ a.toNat % 4 = 0 ∧ s.dev.ccr.getLsbD 0 = true ∧
        f.dev.ccr.getLsbD 0 = true ∧ s.dev.ccr.getLsbD 1 = true ∧ f.dev.ccr.getLsbD 1 = false ∧ hitWay .icache s.icache a = some 1 ∧
        badTag s .icache a 1 = false ∧ badWord s .icache a 1 = false ∧ badTag (warm .icache 0x3#32 a 1 0) .icache a 1 = true ∧
        badWord (warm .icache 0x3#32 a 0 1) .icache a 1 = true ∧ hitWay .icache f.icache a = none) ∧
      counterBelowMax .icache true 0 ∧ counterBelowMax .icache false 0 :=
  ⟨by decide +kernel, by show _ ≠ _; decide, by show _ ≠ _; decide⟩
theorem witness_FpCompareResults : FpPlain base ∧ CanTrap base ttFpException ∧ (30 : RegNum).toNat % 2 = 0 :=
  ⟨fpplain_base, canTrap_base _, rfl⟩
theorem witness_FpRelationByValue :
    (0x7F800001 < 2 ^ (1 + single.eb + single.mb) ∧ (unpack single 0x7F800001).isNan = true) ∧
      (0xFFF0000000000001 < 2 ^ (1 + double.eb + double.mb) ∧ (unpack double 0xFFF0000000000001).isNan = true) ∧
      (unpack single 0x80000000).finite = true ∧ (unpack single 0x7F7FFFFF).finite = true ∧ (unpack double 1).finite = true := by
  decide +kernel
/-- The trace line of SWAP and SWAPA with rd = 0 shows the word that a load of the same place reads (11 R153, 40 R375, R376). -/
theorem test_resultWord_swap :
    decode (resultWord (encode (.swap 0 2 (.imm 8)))) = .ok (.ld 2 2 (.imm 8)) ∧
      decode (resultWord (encode (.swapa 0 3 (.reg 0x0B 2)))) = .ok (.lda 2 3 (.reg 0x0B 2)) ∧
      decode (resultWord (encode (.swapa 0 3 (.reg 0xF6 1)))) = .ok (.lda 2 3 (.reg 0xF7 1)) ∧
      decode (resultWord (encode (.add 0 2 (.imm 8)))) = .ok (.add 2 2 (.imm 8)) := by decide +kernel
theorem witness_RoundingError :
    (1 : Nat) ≠ 0 ∧ (roundFp single 0 false 1 (-149) false).ovf = false ∧ (roundFp double 3 true 0x20000000000001 0 true).ovf = false ∧
      (roundFp single 1 false 0x1000000 104 true).ovf = true ∧
      ∃ x : ℝ, (2 : Nat) ^ (single.mb + 1) ≤ 0x1000000 ∧ (0x1000000 : Nat) * (2 : ℝ) ^ (0 : Int) < x ∧
        x < ((0x1000000 : Nat) + 1) * (2 : ℝ) ^ (0 : Int) :=
  ⟨by decide, by decide +kernel, by decide +kernel, by decide +kernel, 0x1000000 + 1 / 2, by decide, by norm_num, by norm_num⟩
theorem witness_FpDisabledTraps :
    (NoInjection noFpu ∧ noFpu.psr.ef = false ∧ CanTrap noFpu ttFpDisabled ∧ noFpu.psr.s = true) ∧
      NoInjection base ∧ base.psr.ef = true ∧ base.psr.s = true ∧ watchFetch base base.pc = false ∧ CanTrap base ttFpException ∧
      floating (.fba false 0) = true ∧ floating (.fcmpeq 0 0) = true :=
  ⟨⟨plain_base.2.2, rfl, canTrap_of rfl, rfl⟩, plain_base.2.2, rfl, rfl, plain_base.1, canTrap_base _, rfl, rfl⟩
theorem witness_FpExceptionTraps :
    let s := at8 0x40000000#32
    Plain s ∧ s.psr.ef = true ∧ CanTrap s ttFpException ∧ quad (.fcmpeq 0 4) = true ∧ oddDouble (.faddd 2 4 1) = true ∧
      oddDouble (.fsmuld 31 0 0) = true ∧ (31 : RegNum).toNat % 2 = 1 ∧ (ea s 8 (.imm 0)).toNat % 8 = 0 ∧
      NoWatch s true false (ea s 8 (.imm 0)) ∧ NoWatch s false true (ea s 8 (.imm 0)) :=
  ⟨plain_at8 _, rfl, canTrap_at8 _ _, rfl, rfl, rfl, rfl, by decide +kernel, noWatch_at8 _ _ _ _, noWatch_at8 _ _ _ _⟩
theorem witness_TimerTick :
    let d := { base.dev with tim1 := { val := 0, rld := 2, ctrl := 3 }, tim2 := { val := 1, rld := 2, ctrl := 1 }, wdog := 0 }
    d.tim1.ctrl.getLsbD 0 = true ∧ d.tim1.val.toNat % 2 ^ 24 = 0 ∧ d.tim1.ctrl.getLsbD 1 = true ∧ d.tim2.ctrl.getLsbD 0 = true ∧
      d.tim2.val.toNat % 2 ^ 24 ≠ 0 ∧ d.tim1.ctrl.getLsbD 4 = false ∧ (0x10#32).getLsbD 4 = true := by decide +kernel
theorem witness_InterruptRegisters :
    ([0x80000090#32, 0x80000094#32, 0x80000098#32, 0x8000009C#32].all fun a => ea (at8 a) 8 (.imm 0) = a ∧ idle (at8 a) a = true) ∧
      ∀ a, Plain (at8 a) ∧ ∀ x, NoWatch (at8 a) false true x ∧ NoWatch (at8 a) true false x :=
  ⟨by decide +kernel, fun a => ⟨plain_at8 a, fun _ => ⟨noWatch_at8 _ _ _ _, noWatch_at8 _ _ _ _⟩⟩⟩

end Sys2Proof.Tests
end

/-! PROOFS. The state after reset, and the register windows with SAVE and RESTORE (10_state R21, R22, R85, 42 R471, R472). -/

namespace Sys2Proof.Proofs

open Sys2Proof Sys2Proof.Machine

/-! ### The state after reset (10_state R85) -/

theorem psrWord_reset : psrWord Psr.reset = 0xB3021080#32 := by decide

theorem fsrWord_reset : fsrWord Fsr.reset = 0 := by decide

theorem reset_watchpoint (k : Fin 4) : State.reset.wp.get k = Watchpoint.reset := by
  simp [State.reset, Vector.get_eq_getElem]

/-- MCFG1 at reset, whatever the levels of the port pins: only PRWDH, bits 9:8, follows them (70 R803). -/
theorem mcfg1_reset_fields (pio : BitVec 3) :
    let m1 := 0x00F1F01F#32 ||| (pio.extractLsb' 0 2).setWidth 32 <<< 8
    m1.extractLsb' 20 4 = 0xF#4 ∧ m1.extractLsb' 12 5 = 31#5 ∧ m1.extractLsb' 0 5 = 31#5 ∧ bit m1 26 = false ∧ bit m1 25 = false ∧
      bit m1 19 = false ∧ bit m1 11 = false ∧ m1.extractLsb' 8 2 = pio.extractLsb' 0 2 := by
  decide +revert

/-- MECFG1 at reset, whatever the levels of the pins: ROMEEN, bit 26, follows PIO[2] and PRBS, bits 17:14, follow ROMBSD (70 R803). -/
theorem mecfg1_reset_fields (pio : BitVec 3) (rombsd : BitVec 4) :
    let e := 0x00400300#32 ||| (pio.extractLsb' 2 1).setWidth 32 <<< 26 ||| rombsd.setWidth 32 <<< 14
    e.extractLsb' 27 5 = 0 ∧ bit e 19 = false ∧ bit e 26 = pio.getLsbD 2 ∧ bit e 22 = true ∧ bit e 20 = false ∧
      bit e 18 = false ∧ bit e 21 = false ∧ e.extractLsb' 14 4 = rombsd ∧ e.extractLsb' 8 2 = 0b11#2 := by
  decide +revert

/-- Settles O1: the registers of the IU and the FPU, then the fields of the on-chip registers; those that follow the reset pins do so
at every level of the pins. -/
theorem resetState : Obligations.ResetState := by
  have watchpoints (k : Fin 4) :
      (State.reset.wp.get k).ifEn = false ∧ (State.reset.wp.get k).dl = false ∧ (State.reset.wp.get k).ds = false := by
    rw [reset_watchpoint]; exact ⟨rfl, rfl, rfl⟩
  have fsr : fsrWord State.reset.fsr &&& 0x000E3000#32 = 0 :=
    (congrArg (· &&& 0x000E3000#32) fsrWord_reset).trans BitVec.zero_and
  refine ⟨?iu, ?caches, ?mcfg1, ?mcfg2, ?mecfg1, ?irq, ?timers⟩
  case iu => exact ⟨rfl, rfl, psrWord_reset, rfl, by decide, rfl, rfl, by decide, watchpoints, rfl, rfl, fsr⟩
  case caches => exact ⟨by decide, by decide, rfl, rfl, rfl⟩
  case mcfg1 => exact mcfg1_reset_fields Config.resetPio
  case mcfg2 => decide
  case mecfg1 => exact mecfg1_reset_fields Config.resetPio Config.resetRombsd
  case irq => exact ⟨by decide, rfl, rfl⟩
  case timers => decide

/-! ### The register windows (10_state R21) -/

theorem regIndex_global (w : BitVec 3) {n : RegNum} (h : n.toNat < 8) : regIndex w n = ⟨n.toNat, by omega⟩ := dif_pos h

theorem regIndex_window (w : BitVec 3) {n : RegNum} (h : 8 ≤ n.toNat) :
    regIndex w n = ⟨8 + (w.toNat * 16 + (n.toNat - 8)) % 128, by omega⟩ := dif_neg (Nat.not_lt.mpr h)

/-- Taking 16 from the number of an in, 24 to 31, gives the number of an out, 8 to 15. -/
theorem toNat_out_of_in {n : RegNum} (h : 24 ≤ n.toNat) : (n - 16).toNat = n.toNat - 16 :=
  BitVec.toNat_sub_of_le (BitVec.le_def.mpr (Nat.le_trans (by decide) h))

/-- The ins of window `w` are the outs of window `w + 1`; window 7 is followed by window 0. -/
theorem regIndex_ins_eq_outs (w : BitVec 3) {n : RegNum} (h : 24 ≤ n.toNat) : regIndex w n = regIndex (w + 1) (n - 16) := by
  have outs := toNat_out_of_in h
  have next : (w + 1).toNat = (w.toNat + 1) % 8 := BitVec.toNat_add w 1
  rw [regIndex_window w (by omega), regIndex_window (w + 1) (by omega), Fin.mk.injEq, outs, next]
  omega

/-- A register above `r[7]` is a word of W, at its place in the current window. -/
theorem r_of_window (s : State) {n : RegNum} (h : 8 ≤ n.toNat) : s.r n = (s.ireg.get (regIndex s.psr.cwp n)).data :=
  r_of_ne s (by rintro rfl; exact absurd h (by decide))

theorem r_ins_eq_outs (s : State) (w : BitVec 3) {n : RegNum} (h : 24 ≤ n.toNat) :
    { s with psr := { s.psr with cwp := w } }.r n = { s with psr := { s.psr with cwp := w + 1 } }.r (n - 16) := by
  have outs := toNat_out_of_in h
  rw [r_of_window _ (by omega), r_of_window _ (by omega), regIndex_ins_eq_outs _ h]

/-! ### SAVE and RESTORE (42 R471, R472) -/

/-- A valid new window: `r[rs1] + operand2`, both read in the old window, goes to `r[rd]` of the new one. -/
theorem windowOp_completes {s : State} (hp : Plain s) (rd rs1 : RegNum) (op2 : RegImm) {w : BitVec 3} (tt : BitVec 8)
    (hw : s.wim.getLsbD w.toNat = false) :
    Completes (windowOp s rd rs1 op2 w tt) { s with psr := { s.psr with cwp := w } } rd (s.r rs1 + s.operand2 op2) := by
  obtain ⟨watch, clean, noInjection⟩ := hp
  have injectionOff : NoInjection { s with psr := { s.psr with cwp := w } } := noInjection
  have valid : ¬ windowInvalid s w = true := Bool.eq_false_iff.mp hw
  rw [windowOp, checked_nil watch, if_neg valid, withOperands_clean clean]
  exact completes_writeR injectionOff rd _

/-- A new window marked in WIM: the window trap, before any register is read. -/
theorem windowOp_traps {s : State} (hp : Plain s) (rd rs1 : RegNum) (op2 : RegImm) {w : BitVec 3} {tt : BitVec 8}
    (hw : s.wim.getLsbD w.toNat = true) (ht : CanTrap s tt) : Traps (windowOp s rd rs1 op2 w tt) s tt := by
  obtain ⟨watch, -, noInjection⟩ := hp
  have invalid : windowInvalid s w = true := hw
  rw [windowOp, checked_nil watch, if_pos invalid]
  exact traps_raise noInjection ht

theorem exec_save (rd rs1 : RegNum) (op2 : RegImm) (s : State) :
    exec (.save rd rs1 op2) s = windowOp s rd rs1 op2 (s.psr.cwp - 1) ttWindowOverflow := by rfl

theorem exec_restore (rd rs1 : RegNum) (op2 : RegImm) (s : State) :
    exec (.restore rd rs1 op2) s = windowOp s rd rs1 op2 (s.psr.cwp + 1) ttWindowUnderflow := by rfl

/-- Settles O25: the place of a register in the file, by the three ranges of register numbers, and the two ends of `windowOp`. -/
theorem windowResults : Obligations.WindowResults := by
  refine ⟨fun s n => ⟨?zero, ?globals, ?window, ?overlap⟩, fun s rd rs1 op2 hp => ⟨?save, ?restore⟩⟩
  case zero => rintro rfl; exact r_zero s
  case globals => intro h hn; rw [r_of_ne s hn, regIndex_global _ h]
  case window => intro h; rw [r_of_window s h, regIndex_window _ h]
  case overlap => exact fun h w => r_ins_eq_outs s w h
  case save => rw [exec_save]; exact ⟨windowOp_completes hp rd rs1 op2 _, windowOp_traps hp rd rs1 op2⟩
  case restore => rw [exec_restore]; exact ⟨windowOp_completes hp rd rs1 op2 _, windowOp_traps hp rd rs1 op2⟩

end Sys2Proof.Proofs

/-! PROOFS. What the shared operations do, beyond Laws/: traps and floating-point checks. -/

namespace Sys2Proof.Proofs

open Sys2Proof Sys2Proof.Machine

/-! ### Traps (60 R640, 44 R561, R595) -/

/-- `fp_exception` enters its trap from the state with the new ftt (44 R561). -/
theorem traps_raiseFp {s : State} (hn : NoInjection s) (ht : CanTrap s ttFpException) (ftt : BitVec 3) :
    Traps (raiseFp s ftt) { s with fsr := { s.fsr with ftt := ftt } } ttFpException :=
  have uninjected : NoInjection { s with fsr := { s.fsr with ftt := ftt } } := hn
  ⟨_, by rw [raiseFp, trapState_taken ht], enterTrap_spec uninjected _⟩

theorem fpUnimplemented_disabled {s : State} (hn : NoInjection s) (he : s.psr.ef = false) (ht : CanTrap s ttFpDisabled) :
    Traps (fpUnimplemented s) s ttFpDisabled := by
  rw [fpUnimplemented, fpChecks, he]
  exact traps_raise hn ht

theorem fpUnimplemented_enabled {s : State} (hn : NoInjection s) (he : s.psr.ef = true) (hw : watchFetch s s.pc = false)
    (ht : CanTrap s ttFpException) :
    Traps (fpUnimplemented s) { s with fsr := { s.fsr with ftt := fttUnimplemented } } ttFpException := by
  rw [fpUnimplemented, fpChecks, checked_pass hw _ (by simp [he])]
  exact traps_raiseFp hn ht _

end Sys2Proof.Proofs

/-! PROOFS. The encoder and the decoder (30_encoding R300 to R321). -/

namespace Sys2Proof.Proofs

open Sys2Proof Sys2Proof.Machine

/-! ### Decoding an encoded instruction

A row of a decoder table gives, of any word with the row's number, the instruction of the word's fields. Each lemma of this section
takes such a row and says that a word of one encoding shape decodes to the instruction of the fields encoded. -/

theorem decode_op0 {w : Word} (h : opField w = 0) : decode w = decodeFormat2 w := by rw [decode, h]; rfl
theorem decode_op1 {w : Word} (h : opField w = 1) : decode w = .ok (.call (disp30 w)) := by rw [decode, h]; rfl
theorem decode_op2 {w : Word} (h : opField w = 2) : decode w = decodeOp2 w := by rw [decode, h]; rfl
theorem decode_op3 {w : Word} (h : opField w = 3) : decode w = decodeOp3 w := by rw [decode, h]; rfl

theorem decode_fmt2_of_row {i : RegNum → BitVec 22 → Instr} {r : RegNum} {o : BitVec 3} {c : BitVec 22}
    (row : ∀ w, op2Field w = o → rd w = r → imm22 w = c → decodeFormat2 w = .ok (i (rd w) (imm22 w))) :
    decode (fmt2 r o c) = .ok (i r c) := by
  have fields := row (fmt2 r o c) (by simp) (by simp) (by simp)
  rw [decode_op0 (opField_fmt2 ..), fields, rd_fmt2, imm22_fmt2]

theorem decode_branch_of_row {table : Bool → BitVec 22 → BitVec 4 → Instr} {o : BitVec 3}
    (row : ∀ w, op2Field w = o → decodeFormat2 w = .ok (table (aBit w) (imm22 w) (condField w))) (a : Bool) (k : BitVec 4)
    (d : BitVec 22) : decode (fmt2b a k o d) = .ok (table a d k) := by
  rw [decode_op0 (opField_fmt2b ..), row _ (op2Field_fmt2b ..), aBit_fmt2b, imm22_fmt2b, condField_fmt2b]

theorem decode_bicc (a : Bool) (k : BitVec 4) (d : BitVec 22) : decode (fmt2b a k 2 d) = .ok (decodeBicc a d k) :=
  decode_branch_of_row (fun w h => by rw [decodeFormat2, h]; rfl) a k d

theorem decode_fbfcc (a : Bool) (k : BitVec 4) (d : BitVec 22) : decode (fmt2b a k 6 d) = .ok (decodeFBfcc a d k) :=
  decode_branch_of_row (fun w h => by rw [decodeFormat2, h]; rfl) a k d

theorem decode_cbccc (a : Bool) (k : BitVec 4) (d : BitVec 22) : decode (fmt2b a k 7 d) = .ok (.cbccc a k d) :=
  decode_branch_of_row (table := fun a d k => .cbccc a k d) (fun w h => by rw [decodeFormat2, h]; rfl) a k d

theorem decode_op2_regImm_of_row {i : RegNum → RegNum → RegImm → Instr} {r : RegNum} {o3 : BitVec 6}
    (row : ∀ w, op3Field w = o3 → rd w = r → decodeOp2 w = .ok (i (rd w) (rs1 w) (regImm w))) (r1 : RegNum) (x : RegImm) :
    decode (encRegImm 2 r o3 r1 x) = .ok (i r r1 x) := by
  have fields := row (encRegImm 2 r o3 r1 x) (by simp) (by simp)
  rw [decode_op2 (opField_encRegImm ..), fields, rd_encRegImm, rs1_encRegImm, regImm_encRegImm]

/-- Rows without a destination register, whose rd field the encoder leaves 0. -/
theorem decode_op2_source_of_row {i : RegNum → RegImm → Instr} {o3 : BitVec 6}
    (row : ∀ w, op3Field w = o3 → decodeOp2 w = .ok (i (rs1 w) (regImm w))) (r1 : RegNum) (x : RegImm) :
    decode (encRegImm 2 0 o3 r1 x) = .ok (i r1 x) :=
  decode_op2_regImm_of_row (i := fun _ => i) (fun w h _ => row w h) r1 x

theorem decode_op3_regImm_of_row {i : RegNum → RegNum → RegImm → Instr} {o3 : BitVec 6}
    (row : ∀ w, op3Field w = o3 → decodeOp3 w = .ok (i (rd w) (rs1 w) (regImm w))) (r r1 : RegNum) (x : RegImm) :
    decode (encRegImm 3 r o3 r1 x) = .ok (i r r1 x) := by
  rw [decode_op3 (opField_encRegImm ..), row _ (op3Field_encRegImm ..), rd_encRegImm, rs1_encRegImm, regImm_encRegImm]

theorem decode_op3_source_of_row {i : RegNum → RegImm → Instr} {o3 : BitVec 6}
    (row : ∀ w, op3Field w = o3 → decodeOp3 w = .ok (i (rs1 w) (regImm w))) (r1 : RegNum) (x : RegImm) :
    decode (encRegImm 3 0 o3 r1 x) = .ok (i r1 x) :=
  decode_op3_regImm_of_row (i := fun _ => i) row 0 r1 x

theorem decode_shift_of_row {i : RegNum → RegNum → ShiftArg → Instr} {o3 : BitVec 6}
    (row : ∀ w, op3Field w = o3 → decodeOp2 w = .ok (i (rd w) (rs1 w) (shiftArg w))) (r r1 : RegNum) (x : ShiftArg) :
    decode (encShift r o3 r1 x) = .ok (i r r1 x) := by
  rw [decode_op2 (opField_encShift ..), row _ (op3Field_encShift ..), rd_encShift, rs1_encShift, shiftArg_encShift]

theorem decode_alt_of_row {i : RegNum → RegNum → AltArg → Instr} {o3 : BitVec 6}
    (row : ∀ w, op3Field w = o3 → decodeOp3 w = .ok (i (rd w) (rs1 w) (altArg w))) (r r1 : RegNum) (x : AltArg) :
    decode (encAlt r o3 r1 x) = .ok (i r r1 x) := by
  rw [decode_op3 (opField_encAlt ..), row _ (op3Field_encAlt ..), rd_encAlt, rs1_encAlt, altArg_encAlt]

theorem decode_ticc (k : BitVec 4) (r1 : RegNum) (x : TrapArg) : decode (encTicc k r1 x) = .ok (decodeTicc r1 x k) := by
  have row : ∀ w, op3Field w = 0x3A → decodeOp2 w = .ok (decodeTicc (rs1 w) (trapArg w) (condField w)) :=
    fun w h => by rw [decodeOp2, h]; rfl
  rw [decode_op2 (opField_encTicc ..), row _ (op3Field_encTicc ..), rs1_encTicc, trapArg_encTicc, condField_encTicc]

/-- The words that read a state register: RDY, STBAR and RDASR share a row. -/
theorem decode_read_of_row {i : RegNum → RegNum → Instr} {r : RegNum} {o3 : BitVec 6} {r1 : RegNum}
    (row : ∀ w, op3Field w = o3 → rd w = r → rs1 w = r1 → decodeOp2 w = .ok (i (rd w) (rs1 w))) :
    decode (fmt3r 2 r o3 r1 0 0) = .ok (i r r1) := by
  have fields := row (fmt3r 2 r o3 r1 0 0) (by simp) (by simp) (by simp)
  rw [decode_op2 (opField_fmt3r ..), fields, rd_fmt3r, rs1_fmt3r]

theorem decode_readPrivileged_of_row {i : RegNum → Instr} {o3 : BitVec 6}
    (row : ∀ w, op3Field w = o3 → decodeOp2 w = .ok (i (rd w))) (r : RegNum) : decode (fmt3r 2 r o3 0 0 0) = .ok (i r) :=
  decode_read_of_row (i := fun r _ => i r) fun w h _ _ => row w h

theorem decodeOp2_fpop1 {w : Word} (h : op3Field w = 0x34) : decodeOp2 w = decodeFpop1 w := by rw [decodeOp2, h]; rfl

theorem decodeOp2_fpop2 {w : Word} (h : op3Field w = 0x35) : decodeOp2 w = decodeFpop2 w := by rw [decodeOp2, h]; rfl

theorem decode_fpop1_of_row {i : RegNum → RegNum → RegNum → Instr} {f : BitVec 9}
    (row : ∀ w, opf w = f → decodeFpop1 w = .ok (i (rd w) (rs1 w) (rs2 w))) (r r1 r2 : RegNum) :
    decode (fmt3f r 0x34 r1 f r2) = .ok (i r r1 r2) := by
  rw [decode_op2 (opField_fmt3f ..), decodeOp2_fpop1 (op3Field_fmt3f ..), row _ (opf_fmt3f ..), rd_fmt3f, rs1_fmt3f, rs2_fmt3f]

theorem decode_fpop1_unary_of_row {i : RegNum → RegNum → Instr} {f : BitVec 9}
    (row : ∀ w, opf w = f → decodeFpop1 w = .ok (i (rd w) (rs2 w))) (r r2 : RegNum) :
    decode (fmt3f r 0x34 0 f r2) = .ok (i r r2) :=
  decode_fpop1_of_row (i := fun r _ => i r) row r 0 r2

theorem decode_fpop2_of_row {i : RegNum → RegNum → Instr} {f : BitVec 9}
    (row : ∀ w, opf w = f → decodeFpop2 w = .ok (i (rs1 w) (rs2 w))) (r1 r2 : RegNum) :
    decode (fmt3f 0 0x35 r1 f r2) = .ok (i r1 r2) := by
  rw [decode_op2 (opField_fmt3f ..), decodeOp2_fpop2 (op3Field_fmt3f ..), row _ (opf_fmt3f ..), rs1_fmt3f, rs2_fmt3f]

theorem decode_cpop_of_row {i : RegNum → RegNum → BitVec 9 → RegNum → Instr} {o3 : BitVec 6}
    (row : ∀ w, op3Field w = o3 → decodeOp2 w = .ok (i (rd w) (rs1 w) (opf w) (rs2 w))) (r r1 : RegNum) (f : BitVec 9) (r2 : RegNum) :
    decode (fmt3f r o3 r1 f r2) = .ok (i r r1 f r2) := by
  rw [decode_op2 (opField_fmt3f ..), row _ (op3Field_fmt3f ..), rd_fmt3f, rs1_fmt3f, opf_fmt3f, rs2_fmt3f]

/-! ### The words with a reserved operand value (30 R305, R312) -/

theorem decode_sethi {r : RegNum} {c : BitVec 22} (h : ¬ (r = 0 ∧ c = 0)) : decode (fmt2 r 4 c) = .ok (.sethi r c) :=
  decode_fmt2_of_row (i := .sethi) fun w ho hr hc => by
    have row : decodeFormat2 w = if rd w = 0 ∧ imm22 w = 0 then .ok .nop else .ok (.sethi (rd w) (imm22 w)) := by
      rw [decodeFormat2, ho]; rfl
    rw [row, if_neg (by rwa [hr, hc])]

theorem decodeOp2_readY {w : Word} (h : op3Field w = 0x28) : decodeOp2 w = .ok (decodeReadY w) := by rw [decodeOp2, h]; rfl

theorem decodeOp2_writeY {w : Word} (h : op3Field w = 0x30) : decodeOp2 w = .ok (decodeWriteY w) := by rw [decodeOp2, h]; rfl

theorem decode_rdasr {r n : RegNum} (h0 : n ≠ 0) (h15 : ¬ (n = 15 ∧ r = 0)) : decode (fmt3r 2 r 0x28 n 0 0) = .ok (.rdasr r n) :=
  decode_read_of_row (i := .rdasr) fun w ho hr h1 => by
    rw [decodeOp2_readY ho, decodeReadY, if_neg (by rwa [h1, hr]), if_neg (by rwa [h1])]

theorem decode_rdy (r : RegNum) : decode (fmt3r 2 r 0x28 0 0 0) = .ok (.rdy r) :=
  decode_read_of_row (i := fun r _ => .rdy r) fun w ho hr h1 => by
    rw [decodeOp2_readY ho, decodeReadY, if_neg (by rw [h1]; exact fun h => absurd h.1 (by decide)), if_pos h1]

theorem decode_stbar : decode (fmt3r 2 0 0x28 15 0 0) = .ok .stbar :=
  decode_read_of_row (i := fun _ _ => .stbar) fun w ho hr h1 => by rw [decodeOp2_readY ho, decodeReadY, if_pos ⟨h1, hr⟩]

theorem decode_wrasr {n : RegNum} (h : n ≠ 0) (r1 : RegNum) (x : RegImm) : decode (encRegImm 2 n 0x30 r1 x) = .ok (.wrasr n r1 x) :=
  decode_op2_regImm_of_row (i := .wrasr) (fun w ho hr => by rw [decodeOp2_writeY ho, decodeWriteY, if_neg (by rwa [hr])]) r1 x

theorem decode_wry (r1 : RegNum) (x : RegImm) : decode (encRegImm 2 0 0x30 r1 x) = .ok (.wry r1 x) :=
  decode_op2_regImm_of_row (i := fun _ r1 x => .wry r1 x) (fun w ho hr => by rw [decodeOp2_writeY ho, decodeWriteY, if_pos hr]) r1 x

/-- Settles O5: by the shapes of the encoder, each with its row of the decoder's tables. -/
theorem decodeEncode : Obligations.DecodeEncode := by
  intro i wf
  cases i
  case call d => exact (decode_op1 (opField_fmt1 d)).trans (by rw [disp30_fmt1])
  case unimp c => exact decode_fmt2_of_row (i := fun _ c => .unimp c) fun w h _ _ => by rw [decodeFormat2, h]; rfl
  case nop =>
    exact decode_fmt2_of_row (i := fun _ _ => .nop) fun w h hr hc => by rw [decodeFormat2, h]; exact if_pos ⟨hr, hc⟩
  case sethi r c => exact decode_sethi fun h => by simp [Instr.wellFormed, h] at wf
  case ba | bn | bne | be | bg | ble | bge | bl | bgu | bleu | bcc | bcs | bpos | bneg | bvc | bvs => exact decode_bicc ..
  case fbn | fbne | fblg | fbul | fbl | fbug | fbg | fbu | fba | fbe | fbue | fbge | fbuge | fble | fbule | fbo =>
    exact decode_fbfcc ..
  case cbccc => exact decode_cbccc ..
  case ta | tn | tne | te | tg | tle | tge | tl | tgu | tleu | tcc | tcs | tpos | tneg | tvc | tvs => exact decode_ticc ..
  case stbar => exact decode_stbar
  case rdy => exact decode_rdy _
  case rdasr r n =>
    simp only [Instr.wellFormed, Bool.and_eq_true, Bool.not_eq_true', beq_eq_false_iff_ne, Bool.and_eq_false_imp, beq_iff_eq] at wf
    exact decode_rdasr wf.1 fun h => wf.2 h.1 h.2
  case wry => exact decode_wry ..
  case wrasr n r1 x => exact decode_wrasr (by simpa [Instr.wellFormed] using wf) r1 x
  case rdpsr | rdwim | rdtbr => exact decode_readPrivileged_of_row (fun w h => by rw [decodeOp2, h]; rfl) ..
  case wrpsr | wrwim | wrtbr | rett | flush => exact decode_op2_source_of_row (fun w h => by rw [decodeOp2, h]; rfl) ..
  case sll | srl | sra => exact decode_shift_of_row (fun w h => by rw [decodeOp2, h]; rfl) ..
  case cpop1 | cpop2 => exact decode_cpop_of_row (fun w h => by rw [decodeOp2, h]; rfl) ..
  case fcmps | fcmpd | fcmpes | fcmped | fcmpq | fcmpeq => exact decode_fpop2_of_row (fun w h => by rw [decodeFpop2, h]; rfl) ..
  case fadds | faddd | faddq | fsubs | fsubd | fsubq | fmuls | fmuld | fmulq | fdivs | fdivd | fdivq | fsmuld | fdmulq =>
    exact decode_fpop1_of_row (fun w h => by rw [decodeFpop1, h]; rfl) ..
  case fmovs | fnegs | fabss | fsqrts | fsqrtd | fsqrtq | fitos | fdtos | fqtos | fitod | fstod | fqtod | fitoq | fstoq | fdtoq | fstoi | fdtoi
      | fqtoi =>
    exact decode_fpop1_unary_of_row (fun w h => by rw [decodeFpop1, h]; rfl) ..
  case lda | lduba | lduha | ldda | sta | stba | stha | stda | ldsba | ldsha | ldstuba | swapa =>
    exact decode_alt_of_row (fun w h => by rw [decodeOp3, h]; rfl) ..
  case ldfsr | stfsr | stdfq => exact decode_op3_source_of_row (fun w h => by rw [decodeOp3, h]; rfl) ..
  case ld | ldub | lduh | ldd | st | stb | sth | std | ldsb | ldsh | ldstub | swap | ldf | lddf | stf | stdf | ldc | ldcsr | lddc
      | stc | stcsr | stdcq | stdc =>
    exact decode_op3_regImm_of_row (fun w h => by rw [decodeOp3, h]; rfl) ..
  all_goals exact decode_op2_regImm_of_row (fun w h _ => by rw [decodeOp2, h]; rfl) ..

/-! ### Decoding any word -/

theorem decodeFormat2_wellFormed {w : Word} {i : Instr} (h : decodeFormat2 w = .ok i) : i.wellFormed = true := by
  have bicc (a : Bool) (d : BitVec 22) (k : BitVec 4) : (decodeBicc a d k).wellFormed = true := by
    unfold decodeBicc; split <;> rfl
  have fbfcc (a : Bool) (d : BitVec 22) (k : BitVec 4) : (decodeFBfcc a d k).wellFormed = true := by
    unfold decodeFBfcc; split <;> rfl
  unfold decodeFormat2 at h
  split at h
  case h_2 => cases h; exact bicc ..
  case h_3 =>
    split at h
    · cases h; rfl
    · next sethi => cases h; simpa [Instr.wellFormed, Decidable.imp_iff_not_or] using sethi
  case h_4 => cases h; exact fbfcc ..
  all_goals cases h
  all_goals rfl

theorem decodeReadY_wellFormed (w : Word) : (decodeReadY w).wellFormed = true := by
  unfold decodeReadY
  split
  · rfl
  · next notStbar =>
    split
    · rfl
    · next notY => simpa [Instr.wellFormed, show ¬ rs1 w = 0#5 from notY, Decidable.imp_iff_not_or] using notStbar

theorem decodeWriteY_wellFormed (w : Word) : (decodeWriteY w).wellFormed = true := by
  unfold decodeWriteY
  split
  · rfl
  · next notY => simpa [Instr.wellFormed] using notY

theorem decodeFpop1_wellFormed {w : Word} {i : Instr} (h : decodeFpop1 w = .ok i) : i.wellFormed = true := by
  unfold decodeFpop1 at h
  split at h <;> cases h <;> rfl

theorem decodeFpop2_wellFormed {w : Word} {i : Instr} (h : decodeFpop2 w = .ok i) : i.wellFormed = true := by
  unfold decodeFpop2 at h
  split at h <;> cases h <;> rfl

theorem decodeOp2_wellFormed {w : Word} {i : Instr} (h : decodeOp2 w = .ok i) : i.wellFormed = true := by
  have ticc (r : RegNum) (t : TrapArg) (k : BitVec 4) : (decodeTicc r t k).wellFormed = true := by
    unfold decodeTicc; split <;> rfl
  unfold decodeOp2 at h
  split at h
  all_goals first
    | exact decodeFpop1_wellFormed h
    | exact decodeFpop2_wellFormed h
    | cases h
  all_goals first
    | rfl
    | exact decodeReadY_wellFormed w
    | exact decodeWriteY_wellFormed w
    | exact ticc ..

theorem decodeOp3_wellFormed {w : Word} {i : Instr} (h : decodeOp3 w = .ok i) : i.wellFormed = true := by
  unfold decodeOp3 at h
  split at h <;> cases h <;> rfl

/-- Settles O6: table by table; the rows that share a number test for NOP, STBAR, RDY and WRY before they give the general form. -/
theorem decodeWellFormed : Obligations.DecodeWellFormed := by
  intro w i h
  unfold decode at h
  split at h
  case h_1 => exact decodeFormat2_wellFormed h
  case h_2 => cases h; rfl
  case h_3 => exact decodeOp2_wellFormed h
  case h_4 => exact decodeOp3_wellFormed h

/-- Settles O7: each word evaluated. -/
theorem decodeWords : Obligations.DecodeWords := by
  refine ⟨?_, ?_, ?_, ?_, ?_, ?_, ?_, ?_, ?_, ?_, ?_, ?_, ?_, ?_⟩ <;> decide

/-! ### Unassigned encodings (30 R320) -/

theorem decodeFormat2_unassigned {w : Word} (h : op2Field w ∈ [1, 3, 5]) : decodeFormat2 w = .error .unassigned := by
  generalize ho : op2Field w = o at h
  simp only [List.mem_cons, List.not_mem_nil, or_false] at h
  obtain rfl | rfl | rfl := h
  all_goals rw [decodeFormat2, ho]; rfl

theorem decodeOp2_unassigned {w : Word} (h : op3Field w ∈ [0x09, 0x0D, 0x19, 0x1D, 0x2C, 0x2D, 0x2E, 0x2F]) :
    decodeOp2 w = .error .unassigned := by
  generalize ho : op3Field w = o at h
  simp only [List.mem_cons, List.not_mem_nil, or_false] at h
  obtain rfl | rfl | rfl | rfl | rfl | rfl | rfl | rfl := h
  all_goals rw [decodeOp2, ho]; rfl

theorem decodeOp3_unassigned {w : Word}
    (h : op3Field w ∈ [0x08, 0x0B, 0x0C, 0x0E, 0x18, 0x1B, 0x1C, 0x1E, 0x22, 0x28, 0x29, 0x2A, 0x2B, 0x2C, 0x2D, 0x2E, 0x2F, 0x32, 0x38,
      0x39, 0x3A, 0x3B, 0x3C, 0x3D, 0x3E, 0x3F]) : decodeOp3 w = .error .unassigned := by
  generalize ho : op3Field w = o at h
  simp only [List.mem_cons, List.not_mem_nil, or_false] at h
  repeat' rcases h with rfl | h
  all_goals rw [decodeOp3, ho]; rfl

theorem decodeFpop1_unassigned {w : Word}
    (h : opf w ∉ [0x001, 0x005, 0x009, 0x029, 0x02A, 0x02B, 0x041, 0x042, 0x043, 0x045, 0x046, 0x047, 0x049, 0x04A, 0x04B, 0x04D, 0x04E,
      0x04F, 0x069, 0x06E, 0x0C4, 0x0C6, 0x0C7, 0x0C8, 0x0C9, 0x0CB, 0x0CC, 0x0CD, 0x0CE, 0x0D1, 0x0D2, 0x0D3]) :
    decodeFpop1 w = .error .unassignedFpop := by
  have number : opf w = BitVec.ofNat 9 (opf w).toNat := by simp
  unfold decodeFpop1
  split
  all_goals first
    | rfl
    | next e => rw [number, e] at h; exact absurd (by decide) h

theorem decodeFpop2_unassigned {w : Word} (h : opf w ∉ [0x051, 0x052, 0x053, 0x055, 0x056, 0x057]) :
    decodeFpop2 w = .error .unassignedFpop := by
  have number : opf w = BitVec.ofNat 9 (opf w).toNat := by simp
  unfold decodeFpop2
  split
  all_goals first
    | rfl
    | next e => rw [number, e] at h; exact absurd (by decide) h

theorem execWord_unassigned {w : Word} (h : decode w = .error .unassigned) (s : State) : execWord w s exec = raise s ttIllegal := by
  rw [execWord, h]

theorem execWord_unassignedFpop {w : Word} (h : decode w = .error .unassignedFpop) (s : State) :
    execWord w s exec = fpUnimplemented s := by
  rw [execWord, h]

/-- Settles O8: the tables give no instruction for these numbers, and such a word raises illegal_instruction, or is an FPop that the FPU
does not implement. -/
theorem unassignedWordsTrap : Obligations.UnassignedWordsTrap := by
  intro w s
  refine ⟨fun unassigned hn ht => ?_, fun hop fpop hn => ?_⟩
  · have rejected : decode w = .error .unassigned := by
      obtain ⟨hop, h⟩ | ⟨hop, h⟩ | ⟨hop, h⟩ := unassigned
      · exact (decode_op0 hop).trans (decodeFormat2_unassigned h)
      · exact (decode_op2 hop).trans (decodeOp2_unassigned h)
      · exact (decode_op3 hop).trans (decodeOp3_unassigned h)
    rw [execWord_unassigned rejected]
    exact traps_raise hn ht
  · have rejected : decode w = .error .unassignedFpop := by
      obtain ⟨ho3, h⟩ | ⟨ho3, h⟩ := fpop
      · exact (decode_op2 hop).trans ((decodeOp2_fpop1 ho3).trans (decodeFpop1_unassigned h))
      · exact (decode_op2 hop).trans ((decodeOp2_fpop2 ho3).trans (decodeFpop2_unassigned h))
    rw [execWord_unassignedFpop rejected]
    exact ⟨fpUnimplemented_disabled hn, fpUnimplemented_enabled hn⟩

end Sys2Proof.Proofs

/-! PROOFS. What every instruction does, operation by operation: the elementary updates of the state that an instruction is made of, and
the induction over the instruction set that a property kept by each of them is kept by all instructions. -/

namespace Sys2Proof.Proofs

open Sys2Proof Sys2Proof.Machine

/-- The next state of an outcome, if it is one, has property `P`. -/
def Ends (P : State → Prop) : Result → Prop
  | .next t => P t
  | _ => True

theorem Ends.mono {P P' : State → Prop} {o : Result} (h : Ends P o) (k : ∀ t, P t → P' t) : Ends P' o := by
  cases o with
  | next t => exact k t h
  | fault f => trivial
  | refused r => trivial

/-- `a` is a word address. -/
def WordAligned (a : Word) : Prop := a.extractLsb' 0 2 = 0

/-- `Q` is kept by every elementary update of an instruction, and gives `P` where the instruction ends, by completing or by a trap. The
updates of the privileged state may use that some state of the instruction, with `Q`, was in supervisor mode. -/
structure Stable (Q P : State → Prop) : Prop where
  completes : ∀ {s}, Q s → P s
  trap : ∀ {s} (eff : State → State) (tt), (∀ t, ∃ f, eff t = { t with fsr := f }) → Q s → P (trapState s eff tt)
  rettError : ∀ {s} (tt), Q s → Ends P (rettError s tt)
  ireg : ∀ {s} (x), Q s → Q { s with ireg := x }
  freg : ∀ {s} (x), Q s → Q { s with freg := x }
  counted : ∀ {s}, Q s → Q { s with asr16 := countCorrected s.asr16 }
  free : ∀ {s}, Q s → Q s.free.2
  advance : ∀ {s}, Q s → Q (advance s)
  jump : ∀ {s} (target), (WordAligned s.pc → WordAligned target) → Q s → Q (jump s target)
  annul : ∀ {s}, Q s → Q (annulNext s)
  icc : ∀ {s} (x), Q s → Q (setIcc s x)
  cwp : ∀ {s} (w), Q s → Q { s with psr := { s.psr with cwp := w } }
  y : ∀ {s} (v), Q s → Q { s with y := v }
  fsr : ∀ {s} (f), Q s → Q { s with fsr := f }
  flush : ∀ {s} (c), Q s → Q (flushCache s c)
  diagRead : ∀ {s} (c t a), Q s → Q (diagRead s c t a).2
  diagWrite : ∀ {s} (c t a v), Q s → Q (diagWrite s c t a v)
  dataRead : ∀ {s} (use a sz), Q s → (dataRead s use a sz).All Q
  physRead : ∀ {s} (a sz), Q s → (busRead s .iu false a sz).All Q
  dataWrite : ∀ {s} (a sz v), Q s → (dataWrite s a sz v).All Q
  psr : ∀ {s} (p), (∃ u, Q u ∧ u.psr.s = true) → Q s → Q { s with psr := p }
  wim : ∀ {s} (v), (∃ u, Q u ∧ u.psr.s = true) → Q s → Q { s with wim := v }
  tba : ∀ {s} (v), (∃ u, Q u ∧ u.psr.s = true) → Q s → Q { s with tba := v }
  asr : ∀ {s} (n v), (∃ u, Q u ∧ u.psr.s = true) → Q s → Q (asrWrite s n v)

section
variable {Q P : State → Prop} (K : Stable Q P) {s : State}
include K

/-! ### Traps and checks -/

theorem Stable.raise (tt : BitVec 8) (h : Q s) : Ends P (raise s tt) := K.trap id tt (fun t => ⟨t.fsr, rfl⟩) h

theorem Stable.raiseFp (ftt : BitVec 3) (h : Q s) : Ends P (raiseFp s ftt) := K.trap _ _ (fun _ => ⟨_, rfl⟩) h

theorem Stable.checked {l : List (Bool × BitVec 8)} {k : Result} (h : Q s) (hk : (∀ p ∈ l, p.1 = false) → Ends P k) :
    Ends P (checked s l k) := by
  induction l with
  | nil =>
    unfold Machine.checked
    split
    · exact K.raise _ h
    · exact hk (by simp)
  | cons p rest ih =>
    obtain ⟨c, tt⟩ := p
    unfold Machine.checked
    split
    · exact K.raise _ h
    · next hc => exact ih fun hrest => hk (List.forall_mem_cons.2 ⟨Bool.eq_false_of_not_eq_true hc, hrest⟩)

theorem Stable.withWatch {l w : Bool} {a : Word} {k : Result} (h : Q s) (hk : Ends P k) : Ends P (withWatch s l w a k) := by
  unfold Machine.withWatch
  split
  · exact K.raise _ h
  · exact hk

theorem Stable.withAligned {a : Word} {n : Nat} {k : Result} (h : Q s) (hk : Ends P k) : Ends P (withAligned s a n k) := by
  unfold Machine.withAligned
  split
  · exact hk
  · exact K.raise _ h

/-! ### Registers -/

theorem Stable.readR {n : RegNum} {v : Word} {s1 : State} (h : Q s) (e : readR s n = some (v, s1)) : Q s1 := by
  unfold Machine.readR at e
  simp only at e
  repeat' split at e
  all_goals cases e
  · exact h
  · exact h
  · exact K.counted (K.ireg _ h)

theorem Stable.readF {n : RegNum} {v : Word} {s1 : State} (h : Q s) (e : readF s n = some (v, s1)) : Q s1 := by
  unfold Machine.readF at e
  simp only at e
  repeat' split at e
  all_goals cases e
  · exact h
  · next g _ => exact K.counted (K.freg (s.freg.set (fregIndex n)
      { data := fixData (s.freg.get (fregIndex n)).data (s.freg.get (fregIndex n)).flip g, flip := g } (fregIndex n).isLt) h)

theorem Stable.writeR (n : RegNum) (v : Word) (h : Q s) : Q (writeR s n v) := by
  unfold Machine.writeR
  split
  · exact h
  · exact K.ireg _ h

theorem Stable.writeF (n : RegNum) (v : Word) (h : Q s) : Q (writeF s n v) := K.freg _ h

theorem Stable.writePair (n : RegNum) (hi lo : Word) (h : Q s) : Q (writePair s n hi lo) := K.writeR _ _ (K.writeR _ _ h)

theorem Stable.writeFPair (n : RegNum) (hi lo : Word) (h : Q s) : Q (writeFPair s n hi lo) := K.writeF _ _ (K.writeF _ _ h)

theorem Stable.withR {n : RegNum} {k : State → Word → Result} (h : Q s) (hk : ∀ t v, Q t → Ends P (k t v)) : Ends P (withR s n k) := by
  unfold Machine.withR
  split
  · exact K.raise _ h
  · next e => exact hk _ _ (K.readR h e)

theorem Stable.withF {n : RegNum} {k : State → Word → Result} (h : Q s) (hk : ∀ t v, Q t → Ends P (k t v)) : Ends P (withF s n k) := by
  unfold Machine.withF
  split
  · exact K.raise _ h
  · next e => exact hk _ _ (K.readF h e)

theorem Stable.withOperand2 {op2 : RegImm} {k : State → Word → Result} (h : Q s) (hk : ∀ t v, Q t → Ends P (k t v)) :
    Ends P (withOperand2 s op2 k) := by
  cases op2 with
  | reg rs2 => exact K.withR h hk
  | imm i => exact hk _ _ h

theorem Stable.withOperands {rs1 : RegNum} {op2 : RegImm} {k : State → Word → Word → Result} (h : Q s)
    (hk : ∀ t a b, Q t → Ends P (k t a b)) : Ends P (withOperands s rs1 op2 k) :=
  K.withR h fun _ a ht => K.withOperand2 ht fun _ b hu => hk _ a b hu

theorem Stable.withAddress {rs1 : RegNum} {op2 : RegImm} {k : State → Word → Result} (h : Q s) (hk : ∀ t a, Q t → Ends P (k t a)) :
    Ends P (withAddress s rs1 op2 k) :=
  K.withOperands h fun _ a b ht => hk _ (a + b) ht

theorem Stable.readAddress {rs1 : RegNum} {op2 : RegImm} (h : Q s) : Q (readAddress s rs1 op2).2 := by
  unfold Machine.readAddress
  split
  · exact h
  · next e1 =>
    split
    · exact K.readR h e1
    · split
      · exact K.readR h e1
      · next e2 => exact K.readR (K.readR h e1) e2

theorem Stable.withAccess {rs1 : RegNum} {op2 : RegImm} {l w : Bool} {k : State → Word → Result} (h : Q s)
    (hk : ∀ t a, Q t → Ends P (k t a)) : Ends P (withAccess s rs1 op2 l w k) := by
  have read : Q (Machine.readAddress s rs1 op2).2 := K.readAddress h
  unfold Machine.withAccess
  split
  · next e =>
    rw [e] at read
    exact K.withWatch read (hk _ _ read)
  · next e =>
    rw [e] at read
    exact K.withWatch (K.free read) (K.raise _ (K.free read))

theorem Stable.withShift {rs1 : RegNum} {cnt : ShiftArg} {k : State → Word → BitVec 5 → Result} (h : Q s)
    (hk : ∀ t a n, Q t → Ends P (k t a n)) : Ends P (withShift s rs1 cnt k) := by
  refine K.withR h fun t a ht => ?_
  cases cnt with
  | reg rs2 => exact K.withR ht fun u b hu => hk _ _ _ hu
  | imm n => exact hk _ _ _ ht

theorem Stable.withTrapNumber {rs1 : RegNum} {arg : TrapArg} {k : State → BitVec 7 → Result} (h : Q s)
    (hk : ∀ t n, Q t → Ends P (k t n)) : Ends P (withTrapNumber s rs1 arg k) := by
  refine K.withR h fun t a ht => ?_
  cases arg with
  | reg rs2 => exact K.withR ht fun u b hu => hk _ _ hu
  | imm n => exact hk _ _ ht

/-! ### Memory -/

theorem Stable.withLoad {use : CacheUse} {a : Word} {sz : Size} {k : State → Word → Result} (h : Q s)
    (hk : ∀ t v, Q t → Ends P (k t v)) : Ends P (withLoad s use a sz k) := by
  have read := K.dataRead use a sz h
  unfold Machine.withLoad
  generalize Machine.dataRead s use a sz = b at read ⊢
  cases b with
  | ok v t => exact hk _ _ read
  | err t => exact K.raise _ read
  | refuse r => trivial

theorem Stable.withPhysRead {a : Word} {sz : Size} {k : State → Word → Result} (h : Q s) (hk : ∀ t v, Q t → Ends P (k t v)) :
    Ends P (withPhysRead s a sz k) := by
  have read := K.physRead a sz h
  unfold Machine.withPhysRead
  generalize busRead s .iu false a sz = b at read ⊢
  cases b with
  | ok v t => exact hk _ _ read
  | err t => exact K.raise _ read
  | refuse r => trivial

theorem Stable.withStore {a : Word} {sz : Size} {v : Word} {k : State → Result} (h : Q s) (hk : ∀ t, Q t → Ends P (k t)) :
    Ends P (withStore s a sz v k) := by
  have written := K.dataWrite a sz v h
  unfold Machine.withStore
  generalize Machine.dataWrite s a sz v = b at written ⊢
  cases b with
  | ok u t => exact hk _ written
  | err t => exact K.raise _ written
  | refuse r => trivial

theorem Stable.withLoadPair {use : CacheUse} {a : Word} {k : State → Word → Word → Result} (h : Q s)
    (hk : ∀ t hi lo, Q t → Ends P (k t hi lo)) : Ends P (withLoadPair s use a k) :=
  K.withLoad h fun _ hi ht => K.withLoad ht fun _ lo hu => hk _ hi lo hu

theorem Stable.withStorePair {a hi lo : Word} {k : State → Result} (h : Q s) (hk : ∀ t, Q t → Ends P (k t)) :
    Ends P (withStorePair s a hi lo k) :=
  K.withStore h fun _ ht => K.withStore ht hk

theorem Stable.withAlternate {odd : Bool} {rs1 : RegNum} {alt : AltArg} {l w : Bool} {k : State → AsiSpace → Word → Result} (h : Q s)
    (hk : ∀ t space a, Q t → Ends P (k t space a)) : Ends P (withAlternate s odd rs1 alt l w k) := by
  refine K.checked h fun _ => ?_
  cases alt with
  | reg asi rs2 => exact K.withAccess h fun t a ht => hk _ _ _ ht
  | imm c => exact K.raise _ h

/-- An instruction that ends by advancing completes. -/
theorem Stable.next (h : Q s) : Ends P (.next (Machine.advance s)) := K.completes (K.advance h)

/-! ### Integer instructions -/

theorem Stable.intOp {rd rs1 : RegNum} {op2 : RegImm} {f : Word → Word → Word} (h : Q s) : Ends P (intOp s rd rs1 op2 f) :=
  K.checked h fun _ => K.withOperands h fun _ _ _ ht => K.next (K.writeR _ _ ht)

theorem Stable.intOpCc {rd rs1 : RegNum} {op2 : RegImm} {f : Word → Word → Word} {x : Word → Word → Word → Icc} (h : Q s) :
    Ends P (intOpCc s rd rs1 op2 f x) :=
  K.checked h fun _ => K.withOperands h fun _ _ _ ht => K.next (K.icc _ (K.writeR _ _ ht))

theorem Stable.shiftOp {rd rs1 : RegNum} {cnt : ShiftArg} {f : Word → BitVec 5 → Word} (h : Q s) : Ends P (shiftOp s rd rs1 cnt f) :=
  K.checked h fun _ => K.withShift h fun _ _ _ ht => K.next (K.writeR _ _ ht)

theorem Stable.taggedTrapOp {rd rs1 : RegNum} {op2 : RegImm} {f : Word → Word → Word} {ev : Word → Word → Word → Bool}
    {x : Word → Word → Word → Icc} (h : Q s) : Ends P (taggedTrapOp s rd rs1 op2 f ev x) := by
  refine K.checked h fun _ => K.withOperands h fun t a b ht => ?_
  split
  · exact K.raise _ ht
  · exact K.next (K.icc _ (K.writeR _ _ ht))

theorem Stable.putProduct (rd : RegNum) (p : BitVec 64) (h : Q s) : Q (putProduct s rd p) := K.y _ (K.writeR _ _ h)

theorem Stable.mulOp {rd rs1 : RegNum} {op2 : RegImm} {f : Word → Word → BitVec 64} (h : Q s) : Ends P (mulOp s rd rs1 op2 f) :=
  K.checked h fun _ => K.withOperands h fun _ _ _ ht => K.next (K.putProduct _ _ ht)

theorem Stable.mulOpCc {rd rs1 : RegNum} {op2 : RegImm} {f : Word → Word → BitVec 64} (h : Q s) : Ends P (mulOpCc s rd rs1 op2 f) :=
  K.checked h fun _ => K.withOperands h fun _ _ _ ht => K.next (K.icc _ (K.putProduct _ _ ht))

theorem Stable.divOp {rd rs1 : RegNum} {op2 : RegImm} {f : Word → Word → Word → Word × Bool} (h : Q s) :
    Ends P (divOp s rd rs1 op2 f) := by
  refine K.checked h fun _ => K.withOperands h fun t a b ht => ?_
  split
  · exact K.raise _ ht
  · exact K.next (K.writeR _ _ ht)

theorem Stable.divOpCc {rd rs1 : RegNum} {op2 : RegImm} {f : Word → Word → Word → Word × Bool} (h : Q s) :
    Ends P (divOpCc s rd rs1 op2 f) := by
  refine K.checked h fun _ => K.withOperands h fun t a b ht => ?_
  split
  · exact K.raise _ ht
  · exact K.next (K.icc _ (K.writeR _ _ ht))

theorem Stable.execMulscc (rd rs1 : RegNum) (op2 : RegImm) (h : Q s) : Ends P (execMulscc rd rs1 op2 s) :=
  K.checked h fun _ => K.withOperands h fun _ _ _ ht => K.next (K.y _ (K.icc _ (K.writeR _ _ ht)))

/-! ### Control transfer -/

omit K in
theorem wordAligned_add {a b : Word} (ha : WordAligned a) (hb : WordAligned b) : WordAligned (a + b) := by
  have low (x : Word) : WordAligned x ↔ x.toNat % 4 = 0 := by
    simp [WordAligned, ← BitVec.toNat_inj]
  rw [low] at *
  rw [BitVec.toNat_add]
  omega

omit K in
theorem wordAligned_shift (a : Word) : WordAligned (a <<< 2) := by
  unfold WordAligned
  ext i hi
  simp [hi, show i < 32 by omega]

omit K in
theorem wordAligned_of_aligned {a : Word} (h : aligned a 4 = true) : WordAligned a := by
  have low : a &&& 3#32 = 0 := by simpa [aligned] using h
  unfold WordAligned
  ext i hi
  have := congrArg (·.getLsbD i) low
  interval_cases i <;> simpa using this

omit K in
theorem wordAligned_branchTarget (pc : Word) (d : BitVec 22) (h : WordAligned pc) : WordAligned (branchTarget pc d) :=
  wordAligned_add h (wordAligned_shift _)

theorem Stable.branch (always taken a : Bool) (d : BitVec 22) (h : Q s) : Q (branch s always taken a d) := by
  have moved : Q (if taken then Machine.jump s (branchTarget s.pc d) else Machine.advance s) := by
    split
    · exact K.jump _ (wordAligned_branchTarget s.pc d) h
    · exact K.advance h
  unfold Machine.branch
  simp only
  split
  · exact K.annul moved
  · exact moved

theorem Stable.branchIcc {c : Cond} {a : Bool} {d : BitVec 22} (h : Q s) : Ends P (branchIcc s c a d) :=
  K.checked h fun _ => K.completes (K.branch _ _ _ _ h)

theorem Stable.branchFcc {always : Bool} {c : FCond} {a : Bool} {d : BitVec 22} (h : Q s) : Ends P (branchFcc s always c a d) :=
  K.checked h fun _ => K.completes (K.branch _ _ _ _ h)

theorem Stable.windowOp {rd rs1 : RegNum} {op2 : RegImm} {w : BitVec 3} {tt : BitVec 8} (h : Q s) :
    Ends P (windowOp s rd rs1 op2 w tt) := by
  refine K.checked h fun _ => ?_
  split
  · exact K.raise _ h
  · exact K.withOperands h fun _ _ _ ht => K.next (K.writeR _ _ (K.cwp w ht))

theorem Stable.execCall (d : BitVec 30) (h : Q s) : Ends P (execCall d s) := by
  refine K.checked h fun _ => K.completes (K.jump _ (fun pc => ?_) (K.writeR _ _ h))
  rw [writeR_pc] at pc
  exact wordAligned_add pc (wordAligned_shift _)

theorem Stable.execJmpl (rd rs1 : RegNum) (op2 : RegImm) (h : Q s) : Ends P (execJmpl rd rs1 op2 s) := by
  refine K.checked h fun _ => K.withAddress h fun t a ht => ?_
  split
  · exact K.raise _ ht
  · next al => exact K.completes (K.jump _ (fun _ => wordAligned_of_aligned (by simpa using al)) (K.writeR _ _ ht))

theorem Stable.execRett (rs1 : RegNum) (op2 : RegImm) (h : Q s) : Ends P (execRett rs1 op2 s) := by
  unfold Machine.execRett
  split
  · exact K.rettError _ h
  next mode =>
  refine K.checked h fun passed => ?_
  split
  · exact K.rettError _ h
  refine K.withAddress h fun t a ht => ?_
  split
  · exact K.rettError _ ht
  next al =>
  have supervisor : ∃ u, Q u ∧ u.psr.s = true := by
    have et : s.psr.et = false := passed (s.psr.et, ttIllegal) (by simp)
    exact ⟨s, h, by simpa [et] using mode⟩
  exact K.completes (K.jump _ (fun _ => wordAligned_of_aligned (by simpa using al)) (K.psr _ supervisor ht))

theorem Stable.trapOn {c : Cond} {rs1 : RegNum} {arg : TrapArg} (h : Q s) : Ends P (trapOn s c rs1 arg) := by
  refine K.checked h fun _ => ?_
  split
  · exact K.withTrapNumber h fun _ _ ht => K.raise _ ht
  · exact K.next h

/-! ### State registers, FLUSH and the coprocessor -/

theorem Stable.readPrivileged {rd : RegNum} {v : Word} (h : Q s) : Ends P (readPrivileged s rd v) :=
  K.checked h fun _ => K.next (K.writeR _ _ h)

theorem Stable.writePrivileged {rs1 : RegNum} {op2 : RegImm} {f : State → Word → State} (h : Q s)
    (hf : ∀ t v, (∃ u, Q u ∧ u.psr.s = true) → Q t → Q (f t v)) : Ends P (writePrivileged s rs1 op2 f) := by
  refine K.checked h fun passed => ?_
  have supervisor : s.psr.s = true := by simpa using passed (!s.psr.s, ttPrivileged) (by simp)
  exact K.withOperands h fun t _ _ ht => K.next (hf _ _ ⟨s, h, supervisor⟩ ht)

theorem Stable.execWrpsr (rs1 : RegNum) (op2 : RegImm) (h : Q s) : Ends P (execWrpsr rs1 op2 s) := by
  unfold Machine.execWrpsr
  split
  · exact K.raise _ h
  next mode =>
  split
  · exact K.withOperands h fun _ _ _ ht => K.raise _ ht
  exact K.checked h fun _ => K.withOperands h fun _ _ _ ht => K.next (K.psr _ ⟨s, h, by simpa using mode⟩ ht)

theorem Stable.execWrasr (n rs1 : RegNum) (op2 : RegImm) (h : Q s) : Ends P (execWrasr n rs1 op2 s) := by
  refine K.checked h fun passed => K.withOperands h fun t _ _ ht => K.next (K.asr _ _ ⟨s, h, ?_⟩ ht)
  have implemented : asrImplemented n = true := by simpa using passed (!asrImplemented n, ttIllegal) (by simp [asrChecks])
  have privileged := passed (asrImplemented n && Config.asrPrivileged && !s.psr.s, ttPrivileged) (by simp [asrChecks])
  simpa [implemented, Config.asrPrivileged] using privileged

theorem Stable.noCoprocessor (h : Q s) : Ends P (noCoprocessor s) := K.raise _ h

theorem Stable.execStdcq (rd rs1 : RegNum) (op2 : RegImm) (h : Q s) : Ends P (execStdcq rd rs1 op2 s) := by
  unfold Machine.execStdcq
  split
  · exact K.raise _ h
  · exact K.noCoprocessor h

/-! ### Loads, stores and atomics -/

theorem Stable.loadOp {rd rs1 : RegNum} {op2 : RegImm} {sz : Size} {ext : Word → Word} (h : Q s) : Ends P (loadOp s rd rs1 op2 sz ext) :=
  K.checked h fun _ => K.withAccess h fun _ _ ht => K.withAligned ht <| K.withLoad ht fun _ _ hu => K.next (K.writeR _ _ hu)

theorem Stable.storeOp {rd rs1 : RegNum} {op2 : RegImm} {sz : Size} {low : Word → Word} (h : Q s) :
    Ends P (storeOp s rd rs1 op2 sz low) :=
  K.checked h fun _ => K.withAccess h fun _ _ ht => K.withR ht fun _ _ hu => K.withAligned hu <| K.withStore hu fun _ => K.next

theorem Stable.execLdd (rd rs1 : RegNum) (op2 : RegImm) (h : Q s) : Ends P (execLdd rd rs1 op2 s) :=
  K.checked h fun _ => K.withAccess h fun _ _ ht => K.withAligned ht <| K.withLoadPair ht fun _ _ _ hu => K.next (K.writePair _ _ _ hu)

theorem Stable.execStd (rd rs1 : RegNum) (op2 : RegImm) (h : Q s) : Ends P (execStd rd rs1 op2 s) :=
  K.checked h fun _ => K.withAccess h fun _ _ ht => K.withR ht fun _ _ hu => K.withR hu fun _ _ hv =>
    K.withAligned hv <| K.withStorePair hv fun _ => K.next

theorem Stable.execLdstub (rd rs1 : RegNum) (op2 : RegImm) (h : Q s) : Ends P (execLdstub rd rs1 op2 s) :=
  K.checked h fun _ => K.withAccess h fun _ _ ht => K.withLoad ht fun _ _ hu => K.withStore hu fun _ hv => K.next (K.writeR _ _ hv)

theorem Stable.execSwap (rd rs1 : RegNum) (op2 : RegImm) (h : Q s) : Ends P (execSwap rd rs1 op2 s) :=
  K.checked h fun _ => K.withAccess h fun _ _ ht => K.withR ht fun _ _ hu => K.withAligned hu <|
    K.withLoad hu fun _ _ hv => K.withStore hv fun _ hw => K.next (K.writeR _ _ hw)

/-! ### Alternate spaces -/

theorem Stable.loadAltOp {rd rs1 : RegNum} {alt : AltArg} {sz : Size} {ext : Word → Word} (h : Q s) :
    Ends P (loadAltOp s rd rs1 alt sz ext) := by
  refine K.withAlternate h fun t space a ht => K.withAligned ht ?_
  cases space with
  | memory use => exact K.withLoad ht fun _ _ hu => K.next (K.writeR _ _ hu)
  | flush c => exact K.next (K.flush _ ht)
  | diagnostic c isTag =>
    simp only
    split
    · exact K.next (K.writeR _ _ (K.diagRead _ _ _ ht))
    · trivial

theorem Stable.storeAltOp {rd rs1 : RegNum} {alt : AltArg} {sz : Size} {low : Word → Word} (h : Q s) :
    Ends P (storeAltOp s rd rs1 alt sz low) := by
  refine K.withAlternate h fun t space a ht => K.withR ht fun u v hu => K.withAligned hu ?_
  cases space with
  | memory use => exact K.withStore hu fun _ => K.next
  | flush c => exact K.next (K.flush _ hu)
  | diagnostic c isTag =>
    simp only
    split
    · exact K.next (K.diagWrite _ _ _ _ hu)
    · trivial

theorem Stable.execLdda (rd rs1 : RegNum) (alt : AltArg) (h : Q s) : Ends P (execLdda rd rs1 alt s) := by
  refine K.withAlternate h fun t space a ht => K.withAligned ht ?_
  cases space with
  | memory use => exact K.withLoadPair ht fun _ _ _ hu => K.next (K.writePair _ _ _ hu)
  | flush c => exact K.next (K.flush _ ht)
  | diagnostic c isTag => exact K.next (K.writePair _ _ _ (K.diagRead _ _ _ (K.diagRead _ _ _ ht)))

theorem Stable.execStda (rd rs1 : RegNum) (alt : AltArg) (h : Q s) : Ends P (execStda rd rs1 alt s) := by
  refine K.withAlternate h fun t space a ht => K.withR ht fun u hi hu => K.withR hu fun v lo hv => K.withAligned hv ?_
  cases space with
  | memory use => exact K.withStorePair hv fun _ => K.next
  | flush c => exact K.next (K.flush _ hv)
  | diagnostic c isTag => exact K.next (K.diagWrite _ _ _ _ (K.diagWrite _ _ _ _ hv))

theorem Stable.execLdstuba (rd rs1 : RegNum) (alt : AltArg) (h : Q s) : Ends P (execLdstuba rd rs1 alt s) := by
  refine K.withAlternate h fun t space a ht => ?_
  cases space with
  | memory use => exact K.withLoad ht fun _ _ hu => K.withStore hu fun _ hv => K.next (K.writeR _ _ hv)
  | flush c => exact K.withPhysRead (K.flush _ ht) fun _ _ hu => K.next (K.writeR _ _ hu)
  | diagnostic c isTag => trivial

theorem Stable.execSwapa (rd rs1 : RegNum) (alt : AltArg) (h : Q s) : Ends P (execSwapa rd rs1 alt s) := by
  refine K.withAlternate h fun t space a ht => K.withR ht fun u v hu => K.withAligned hu ?_
  cases space with
  | memory use => exact K.withLoad hu fun _ _ hv => K.withStore hv fun _ hw => K.next (K.writeR _ _ hw)
  | flush c => exact K.withPhysRead (K.flush _ hu) fun _ _ hv => K.next (K.writeR _ _ hv)
  | diagnostic c isTag => exact K.next (K.writeR _ _ (K.diagWrite _ _ _ _ (K.diagRead _ _ _ hu)))

/-! ### Floating point -/

theorem Stable.execLdf (rd rs1 : RegNum) (op2 : RegImm) (h : Q s) : Ends P (execLdf rd rs1 op2 s) :=
  K.checked h fun _ => K.withAccess h fun _ _ ht => K.withAligned ht <| K.withLoad ht fun _ _ hu => K.next (K.writeF _ _ hu)

theorem Stable.execLdfsr (rs1 : RegNum) (op2 : RegImm) (h : Q s) : Ends P (execLdfsr rs1 op2 s) :=
  K.checked h fun _ => K.withAccess h fun _ _ ht => K.withAligned ht <| K.withLoad ht fun _ _ hu => K.next (K.fsr _ hu)

theorem Stable.execLddf (rd rs1 : RegNum) (op2 : RegImm) (h : Q s) : Ends P (execLddf rd rs1 op2 s) := by
  refine K.checked h fun _ => K.withAccess h fun t a ht => K.withAligned ht ?_
  split
  · exact K.raiseFp _ ht
  · exact K.withLoadPair ht fun _ _ _ hu => K.next (K.writeFPair _ _ _ hu)

theorem Stable.execStf (rd rs1 : RegNum) (op2 : RegImm) (h : Q s) : Ends P (execStf rd rs1 op2 s) :=
  K.checked h fun _ => K.withAccess h fun _ _ ht => K.withF ht fun _ _ hu => K.withAligned hu <| K.withStore hu fun _ => K.next

theorem Stable.execStfsr (rs1 : RegNum) (op2 : RegImm) (h : Q s) : Ends P (execStfsr rs1 op2 s) :=
  K.checked h fun _ => K.withAccess h fun _ _ ht => K.withAligned ht <| K.withStore ht fun _ hu => K.next (K.fsr _ hu)

theorem Stable.execStdf (rd rs1 : RegNum) (op2 : RegImm) (h : Q s) : Ends P (execStdf rd rs1 op2 s) := by
  refine K.checked h fun _ => K.withAccess h fun t a ht => ?_
  split
  · exact K.withAligned ht (K.raiseFp _ ht)
  · exact K.withF ht fun _ _ hu => K.withF hu fun _ _ hv => K.withAligned hv <| K.withStorePair hv fun _ => K.next

theorem Stable.fpComplete {x : BitVec 5} {put : State → State} (h : Q s) (hp : ∀ {t}, Q t → Q (put t)) : Ends P (fpComplete s x put) := by
  unfold Machine.fpComplete
  split
  · exact K.trap _ _ (fun _ => ⟨_, rfl⟩) h
  · exact K.next (hp (K.fsr _ h))

theorem Stable.fpArith {sub : Bool} {r : FpResult} {put : FpResult → State → State} (h : Q s) (hp : ∀ {t}, Q t → Q (put r t)) :
    Ends P (fpArith s sub r put) := by
  unfold Machine.fpArith
  split
  · exact K.raiseFp _ h
  · exact K.fpComplete h hp

theorem Stable.putS (rd : RegNum) (r : FpResult) {t : State} (h : Q t) : Q (putS rd r t) := K.writeF _ _ h

theorem Stable.putD (rd : RegNum) (r : FpResult) {t : State} (h : Q t) : Q (putD rd r t) := K.writeFPair _ _ _ h

theorem Stable.fpop {odd : Bool} {k : Result} (h : Q s) (hk : Ends P k) : Ends P (fpop s odd k) := by
  refine K.checked h fun _ => ?_
  split
  · exact K.raiseFp _ h
  · exact hk

theorem Stable.withS {n : RegNum} {k : State → Nat → Result} (h : Q s) (hk : ∀ t v, Q t → Ends P (k t v)) : Ends P (withS s n k) :=
  K.withF h fun _ _ ht => hk _ _ ht

theorem Stable.withD {n : RegNum} {k : State → Nat → Result} (h : Q s) (hk : ∀ t v, Q t → Ends P (k t v)) : Ends P (withD s n k) :=
  K.withF h fun _ _ ht => K.withF ht fun _ _ hu => hk _ _ hu

theorem Stable.fpS2 {rd rs1 rs2 : RegNum} {f : BitVec 2 → Fp → Fp → FpResult} (h : Q s) : Ends P (fpS2 s rd rs1 rs2 f) :=
  K.fpop h <| K.withS h fun _ _ ht => K.withS ht fun _ _ hu => K.fpArith hu (K.putS _ _)

theorem Stable.fpD2 {rd rs1 rs2 : RegNum} {f : BitVec 2 → Fp → Fp → FpResult} (h : Q s) : Ends P (fpD2 s rd rs1 rs2 f) :=
  K.fpop h <| K.withD h fun _ _ ht => K.withD ht fun _ _ hu => K.fpArith hu (K.putD _ _)

theorem Stable.fpBits {rd rs2 : RegNum} {f : Word → Word} (h : Q s) : Ends P (fpBits s rd rs2 f) :=
  K.fpop h <| K.withF h fun _ _ ht => K.fpComplete ht (K.writeF _ _)

theorem Stable.fpCompare {t : FpFormat} {a b : Nat} {all : Bool} (h : Q s) : Ends P (fpCompare s t a b all) := by
  unfold Machine.fpCompare
  exact K.fpArith h (K.fsr _)

theorem Stable.fpCmpS {rs1 rs2 : RegNum} {all : Bool} (h : Q s) : Ends P (fpCmpS s rs1 rs2 all) :=
  K.fpop h <| K.withS h fun _ _ ht => K.withS ht fun _ _ hu => K.fpCompare hu

theorem Stable.fpCmpD {rs1 rs2 : RegNum} {all : Bool} (h : Q s) : Ends P (fpCmpD s rs1 rs2 all) :=
  K.fpop h <| K.withD h fun _ _ ht => K.withD ht fun _ _ hu => K.fpCompare hu

theorem Stable.fpUnimplemented (h : Q s) : Ends P (fpUnimplemented s) := K.checked h fun _ => K.raiseFp _ h

theorem Stable.execFsqrts (rd rs2 : RegNum) (h : Q s) : Ends P (execFsqrts rd rs2 s) :=
  K.fpop h <| K.withS h fun _ _ ht => K.fpArith ht (K.putS _ _)

theorem Stable.execFsqrtd (rd rs2 : RegNum) (h : Q s) : Ends P (execFsqrtd rd rs2 s) :=
  K.fpop h <| K.withD h fun _ _ ht => K.fpArith ht (K.putD _ _)

theorem Stable.execFsmuld (rd rs1 rs2 : RegNum) (h : Q s) : Ends P (execFsmuld rd rs1 rs2 s) :=
  K.fpop h <| K.withS h fun _ _ ht => K.withS ht fun _ _ hu => K.fpArith hu (K.putD _ _)

theorem Stable.execFitos (rd rs2 : RegNum) (h : Q s) : Ends P (execFitos rd rs2 s) :=
  K.fpop h <| K.withF h fun _ _ ht => K.fpArith ht (K.putS _ _)

theorem Stable.execFitod (rd rs2 : RegNum) (h : Q s) : Ends P (execFitod rd rs2 s) :=
  K.fpop h <| K.withF h fun _ _ ht => K.fpArith ht (K.putD _ _)

theorem Stable.execFdtos (rd rs2 : RegNum) (h : Q s) : Ends P (execFdtos rd rs2 s) :=
  K.fpop h <| K.withD h fun _ _ ht => K.fpArith ht (K.putS _ _)

theorem Stable.execFstod (rd rs2 : RegNum) (h : Q s) : Ends P (execFstod rd rs2 s) :=
  K.fpop h <| K.withS h fun _ _ ht => K.fpArith ht (K.putD _ _)

theorem Stable.execFstoi (rd rs2 : RegNum) (h : Q s) : Ends P (execFstoi rd rs2 s) :=
  K.fpop h <| K.withS h fun _ _ ht => K.fpArith ht (K.putS _ _)

theorem Stable.execFdtoi (rd rs2 : RegNum) (h : Q s) : Ends P (execFdtoi rd rs2 s) :=
  K.fpop h <| K.withD h fun _ _ ht => K.fpArith ht (K.putS _ _)

theorem Stable.execFlush (rs1 : RegNum) (op2 : RegImm) (h : Q s) : Ends P (execFlush rs1 op2 s) :=
  K.checked h fun _ => K.withAddress h fun _ _ ht => K.next (K.flush .dcache (K.flush .icache ht))

theorem Stable.execTaddcc (rd rs1 : RegNum) (op2 : RegImm) (h : Q s) : Ends P (execTaddcc rd rs1 op2 s) := by
  unfold Machine.execTaddcc
  exact K.intOpCc h

theorem Stable.execTsubcc (rd rs1 : RegNum) (op2 : RegImm) (h : Q s) : Ends P (execTsubcc rd rs1 op2 s) := by
  unfold Machine.execTsubcc
  exact K.intOpCc h

theorem Stable.execFsubs (rd rs1 rs2 : RegNum) (h : Q s) : Ends P (execFsubs rd rs1 rs2 s) := by
  unfold Machine.execFsubs
  exact K.fpS2 h

theorem Stable.execFsubd (rd rs1 rs2 : RegNum) (h : Q s) : Ends P (execFsubd rd rs1 rs2 s) := by
  unfold Machine.execFsubd
  exact K.fpD2 h

/-! ### All instructions -/

/-- Every instruction keeps what its elementary updates keep. -/
theorem Stable.exec (i : Instr) (h : Q s) : Ends P (exec i s) := by
  cases i with
  | call => exact K.execCall _ h
  | unimp => exact K.raise _ h
  | nop | stbar => exact K.checked h fun _ => K.next h
  | sethi | rdy => exact K.checked h fun _ => K.next (K.writeR _ _ h)
  | ba | bn | bne | be | bg | ble | bge | bl | bgu | bleu | bcc | bcs | bpos | bneg | bvc | bvs => exact K.branchIcc h
  | fbn | fbne | fblg | fbul | fbl | fbug | fbg | fbu | fba | fbe | fbue | fbge | fbuge | fble | fbule | fbo => exact K.branchFcc h
  | cbccc | cpop1 | cpop2 | ldc | ldcsr | lddc | stc | stcsr | stdc => exact K.noCoprocessor h
  | stdcq rd rs1 op2 => exact K.execStdcq rd rs1 op2 h
  | add | and | or | xor | sub | andn | orn | xnor | addx | subx => exact K.intOp h
  | addcc | andcc | orcc | xorcc | subcc | andncc | orncc | xnorcc | addxcc | subxcc => exact K.intOpCc h
  | taddcc => exact K.execTaddcc _ _ _ h
  | tsubcc => exact K.execTsubcc _ _ _ h
  | sll | srl | sra => exact K.shiftOp h
  | umul | smul => exact K.mulOp h
  | umulcc | smulcc => exact K.mulOpCc h
  | udiv | sdiv => exact K.divOp h
  | udivcc | sdivcc => exact K.divOpCc h
  | taddcctv | tsubcctv => exact K.taggedTrapOp h
  | mulscc => exact K.execMulscc _ _ _ h
  | rdasr => exact K.checked h fun _ => K.next (K.writeR _ _ h)
  | rdpsr | rdwim | rdtbr => exact K.readPrivileged h
  | wry => exact K.checked h fun _ => K.withOperands h fun _ _ _ ht => K.next (K.y _ ht)
  | wrasr => exact K.execWrasr _ _ _ h
  | wrpsr => exact K.execWrpsr _ _ h
  | wrwim => exact K.writePrivileged h fun _ _ => K.wim _
  | wrtbr => exact K.writePrivileged h fun _ _ => K.tba _
  | jmpl => exact K.execJmpl _ _ _ h
  | rett => exact K.execRett _ _ h
  | ta | tn | tne | te | tg | tle | tge | tl | tgu | tleu | tcc | tcs | tpos | tneg | tvc | tvs => exact K.trapOn h
  | flush => exact K.execFlush _ _ h
  | save | restore => exact K.windowOp h
  | mac3e | mac3f => trivial
  | ld | ldub | lduh | ldsb | ldsh => exact K.loadOp h
  | st | stb | sth => exact K.storeOp h
  | ldd => exact K.execLdd _ _ _ h
  | std => exact K.execStd _ _ _ h
  | ldstub => exact K.execLdstub _ _ _ h
  | swap => exact K.execSwap _ _ _ h
  | lda | lduba | lduha | ldsba | ldsha => exact K.loadAltOp h
  | sta | stba | stha => exact K.storeAltOp h
  | ldda => exact K.execLdda _ _ _ h
  | stda => exact K.execStda _ _ _ h
  | ldstuba => exact K.execLdstuba _ _ _ h
  | swapa => exact K.execSwapa _ _ _ h
  | ldf => exact K.execLdf _ _ _ h
  | ldfsr => exact K.execLdfsr _ _ h
  | lddf => exact K.execLddf _ _ _ h
  | stf => exact K.execStf _ _ _ h
  | stfsr => exact K.execStfsr _ _ h
  | stdf => exact K.execStdf _ _ _ h
  | stdfq => exact K.checked h fun _ => K.raiseFp _ h
  | fmovs | fnegs | fabss => exact K.fpBits h
  | fadds | fmuls | fdivs => exact K.fpS2 h
  | faddd | fmuld | fdivd => exact K.fpD2 h
  | fsubs => exact K.execFsubs _ _ _ h
  | fsubd => exact K.execFsubd _ _ _ h
  | fsqrts => exact K.execFsqrts _ _ h
  | fsqrtd => exact K.execFsqrtd _ _ h
  | fsmuld => exact K.execFsmuld _ _ _ h
  | fitos => exact K.execFitos _ _ h
  | fitod => exact K.execFitod _ _ h
  | fdtos => exact K.execFdtos _ _ h
  | fstod => exact K.execFstod _ _ h
  | fstoi => exact K.execFstoi _ _ h
  | fdtoi => exact K.execFdtoi _ _ h
  | fcmps | fcmpes => exact K.fpCmpS h
  | fcmpd | fcmped => exact K.fpCmpD h
  | fsqrtq | faddq | fsubq | fmulq | fdivq | fdmulq | fqtos | fqtod | fitoq | fstoq | fdtoq | fqtoi | fcmpq | fcmpeq =>
    exact K.fpUnimplemented h

end

end Sys2Proof.Proofs

/-! PROOFS. Properties that every write transfer on the bus keeps, and user mode, which changes no privileged state. -/

namespace Sys2Proof.Proofs

open Sys2Proof Sys2Proof.Machine

/-! ### Write transfers -/

/-- `P` is kept by the three things a write transfer does to the state. -/
structure Carried (P : State → Prop) : Prop where
  quiet : ∀ {s t}, Quiet s t → P s → P t
  put : ∀ {s} (a w f), P s → P (s.putWord a w f)
  dsu : ∀ {s} (off v), P s → P (writeDsu s off v)

section
variable {P : State → Prop} (C : Carried P) {s : State}
include C

theorem Carried.writeRamWord (b : RamBank) (a v : Word) (h : P s) : P (writeRamWord s b a v) := by
  unfold Machine.writeRamWord
  simp only
  repeat' split
  all_goals exact C.put _ _ _ h

theorem Carried.writeRamSub {t : State} {b : RamBank} {a : Word} {n : Nat} {v : Word} (h : P s) (e : writeRamSub s b a n v = some t) :
    P t := by
  have put (w : Word) (f : BitVec 39) : P (s.putWord (wordBase a).toNat w f) := C.put _ _ _ h
  unfold Machine.writeRamSub at e
  simp only at e
  repeat' split at e
  all_goals cases e
  case isFalse.isTrue.isFalse.isTrue.isFalse => exact C.put _ _ _ (C.quiet (free_quiet s) h)
  all_goals exact put _ _

theorem Carried.writeRam {t : State} {b : RamBank} {a : Word} {n : Nat} {v : Word} (h : P s) (e : writeRam s b a n v = some t) : P t := by
  unfold Machine.writeRam at e
  split at e
  · cases e
    exact C.writeRamWord _ _ _ h
  · exact C.writeRamSub h e

theorem Carried.ramWrite (a : Word) (n : Nat) (v : Word) (h : P s) : (ramWrite s a n v).All P := by
  unfold Machine.ramWrite
  split
  · exact h
  split
  · exact h
  split
  · exact h
  split
  · exact h
  · next e => exact C.writeRam h e

theorem Carried.areaWrite (a : Word) (sz : Size) (v : Word) (h : P s) : (areaWrite s a sz v).All P := by
  unfold Machine.areaWrite
  simp only
  cases areaOf a with
  | prom =>
    simp only
    split
    · exact h
    · exact C.put _ _ _ h
  | io =>
    simp only
    split
    · exact h
    · exact C.quiet (s := s) ⟨rfl, rfl, rfl⟩ h
  | ram => exact C.ramWrite a _ v h
  | regs =>
    simp only
    split
    · exact C.quiet (writeReg_quiet _ _ _) h
    · trivial
  | dsu =>
    simp only
    split
    · exact C.dsu _ _ h
    · exact h
  | pciRegs =>
    simp only
    split
    · split
      · next e => exact C.quiet (writePci_quiet e) h
      · trivial
    · trivial
  | pciIo => exact C.quiet (pciWindowWrite_quiet _ _ _ _ _) h
  | pciMem => exact C.quiet (pciWindowWrite_quiet _ _ _ _ _) h
  | unassigned => exact h

theorem Carried.busWrite (m : Master) (a : Word) (sz : Size) (v : Word) (h : P s) : (busWrite s m a sz v).All P := by
  unfold Machine.busWrite
  have ha := C.areaWrite a sz v h
  generalize Machine.areaWrite s a sz v = b at ha ⊢
  cases b with
  | ok u t =>
    refine C.quiet (dsuSeesBus_quiet _ _ _ _ _ _) ?_
    split
    · exact ha
    · exact C.quiet (snoop_quiet _ _) ha
  | err t => exact C.quiet (dsuSeesBus_quiet _ _ _ _ _ _) (C.quiet (latchBusError_quiet _ _ _ _ _) ha)
  | refuse r => trivial

theorem Carried.dataWrite (a : Word) (sz : Size) (v : Word) (h : P s) : (dataWrite s a sz v).All P := by
  unfold Machine.dataWrite
  have hb := C.busWrite .iu a sz v h
  generalize Machine.busWrite s .iu a sz v = b at hb ⊢
  cases b with
  | ok u t =>
    simp only [Bus.All]
    split
    · exact C.quiet (updateCached_quiet _ _ _ _ _ _) hb
    · exact hb
  | err t => exact hb
  | refuse r => trivial

end

/-! ### User mode -/

/-- `t` is in user mode, outside debug mode, with the privileged state of `s`. -/
def UserFrame (s t : State) : Prop :=
  t.debugMode = false ∧ t.psr.s = false ∧ t.psr.et = s.psr.et ∧ t.psr.ps = s.psr.ps ∧ t.psr.pil = s.psr.pil ∧ t.psr.ef = s.psr.ef ∧
    t.psr.res = s.psr.res ∧ t.wim = s.wim ∧ t.tba = s.tba ∧ t.tt = s.tt ∧ t.asr16.cb = s.asr16.cb ∧ t.asr16.tcb = s.asr16.tcb ∧
    t.asr17 = s.asr17 ∧ t.asr18 = s.asr18 ∧ t.wp = s.wp

theorem UserFrame.of_cpu {s t u : State} (h : UserFrame s t) (e : u.cpu = t.cpu) : UserFrame s u := by
  simp only [State.cpu, Cpu.mk.injEq] at e
  simpa only [UserFrame, e] using h

theorem userFrame_carried (s : State) : Carried (UserFrame s) where
  quiet q h := h.of_cpu q.1
  put _ _ _ h := h
  dsu _ _ h := h.of_cpu (writeDsu_quiet _ _ _ h.1).1

theorem diagRead_quiet (s : State) (c : CacheId) (t : Bool) (a : Word) : Quiet s (diagRead s c t a).2 := by
  unfold diagRead
  repeat' split
  all_goals exact ⟨rfl, rfl, rfl⟩

theorem countCorrected_cb (a : Asr16) : (countCorrected a).cb = a.cb := by
  unfold countCorrected
  split <;> rfl

theorem countCorrected_tcb (a : Asr16) : (countCorrected a).tcb = a.tcb := by
  unfold countCorrected
  split <;> rfl

theorem enterTrap_trapped (s : State) (tt : BitVec 8) : (enterTrap s tt).trapped = true := by
  simp [enterTrap]

theorem trapState_trapped (s : State) (eff : State → State) (tt : BitVec 8) : (trapState s eff tt).trapped = true := by
  unfold trapState
  split
  · rfl
  split
  · rfl
  · exact enterTrap_trapped _ _

/-- In user mode every elementary update of an instruction keeps the privileged state, and what would change it needs supervisor mode. -/
theorem userFrame_stable (s : State) : Stable (UserFrame s) fun t => t.trapped = true ∨ UserFrame s t where
  completes h := .inr h
  trap eff tt _ _ := .inl (trapState_trapped _ _ _)
  rettError tt _ := by
    unfold Machine.rettError
    split <;> exact .inl rfl
  ireg _ h := h
  freg _ h := h
  counted h := by simpa only [UserFrame, countCorrected_cb, countCorrected_tcb] using h
  free h := h
  advance h := h
  jump _ _ h := h
  annul h := h
  icc _ h := h
  cwp _ h := h
  y _ h := h
  fsr _ h := h
  flush c h := h.of_cpu (flushCache_quiet _ c).1
  diagRead c t a h := h.of_cpu (diagRead_quiet _ c t a).1
  diagWrite c t a v h := h.of_cpu (diagWrite_quiet _ c t a v).1
  dataRead use a sz h := (dataRead_reads _ use a sz).mono fun _ r => h.of_cpu r.1
  physRead a sz h := (busRead_reads _ .iu false a sz).mono fun _ r => h.of_cpu r.1
  dataWrite a sz v h := (userFrame_carried s).dataWrite a sz v h
  psr _ hs _ := by
    obtain ⟨u, hu, su⟩ := hs
    exact absurd su (by simp [hu.2.1])
  wim _ hs _ := by
    obtain ⟨u, hu, su⟩ := hs
    exact absurd su (by simp [hu.2.1])
  tba _ hs _ := by
    obtain ⟨u, hu, su⟩ := hs
    exact absurd su (by simp [hu.2.1])
  asr _ _ hs _ := by
    obtain ⟨u, hu, su⟩ := hs
    exact absurd su (by simp [hu.2.1])

/-- Settles O4: user mode is a property of the elementary updates of every instruction. -/
theorem userModeKeepsPrivileged : Obligations.UserModeKeepsPrivileged := by
  intro i s t user debug run
  have start : UserFrame s s := ⟨debug, user, rfl, rfl, rfl, rfl, rfl, rfl, rfl, rfl, rfl, rfl, rfl, rfl, rfl⟩
  have done := (userFrame_stable s).exec i start
  rw [run] at done
  exact done.imp_right fun kept => kept.2

end Sys2Proof.Proofs

/-! PROOFS. Between the steps and around the instruction: what the devices, the environment and the DSU leave unchanged, and that every
step keeps the invariant. -/

namespace Sys2Proof.Proofs

open Sys2Proof Sys2Proof.Machine

/-! ### Devices that run by themselves -/

/-- From `s` to `t` nothing changes but on-chip devices and the log of outputs. -/
def DeviceOnly (s t : State) : Prop := ∃ d o, t = { s with dev := d, out := o }

theorem DeviceOnly.refl (s : State) : DeviceOnly s s := ⟨s.dev, s.out, rfl⟩

theorem DeviceOnly.trans {s t u : State} (h : DeviceOnly s t) (k : DeviceOnly t u) : DeviceOnly s u := by
  obtain ⟨d, o, rfl⟩ := h
  obtain ⟨d', o', rfl⟩ := k
  exact ⟨d', o', rfl⟩

theorem DeviceOnly.quiet {s t : State} (h : DeviceOnly s t) : Quiet s t := by
  obtain ⟨d, o, rfl⟩ := h
  exact ⟨rfl, rfl, rfl⟩

theorem setUart_deviceOnly (s : State) (u : UartId) (x : Uart) : DeviceOnly s (s.setUart u x) := by
  cases u <;> exact ⟨_, _, rfl⟩

theorem pend_deviceOnly (s : State) (n : Nat) : DeviceOnly s (s.pend n) := ⟨_, _, rfl⟩

theorem DeviceOnly.ite {c : Prop} [Decidable c] {s t u : State} (h : DeviceOnly s t) (k : DeviceOnly s u) :
    DeviceOnly s (if c then t else u) := by
  split
  · exact h
  · exact k

theorem uartStart_deviceOnly (s : State) (u : UartId) : DeviceOnly s (uartStart s u) :=
  .ite (.ite ((setUart_deviceOnly s u _).trans (pend_deviceOnly _ _)) (setUart_deviceOnly s u _)) (.refl s)

theorem uartReceive_deviceOnly (s : State) (u : UartId) (b : Byte) (p f k : Bool) : DeviceOnly s (uartReceive s u b p f k) :=
  .ite (.ite ((setUart_deviceOnly s u _).trans (pend_deviceOnly _ _)) (setUart_deviceOnly s u _)) (.refl s)

theorem uartFinish_deviceOnly (s : State) (u : UartId) : DeviceOnly s (uartFinish s u) := by
  refine .trans (.trans (setUart_deviceOnly s u { s.dev.uart u with tsrBusy := false, left := 0 }) (.ite ?_ ?_)) (uartStart_deviceOnly _ _)
  · exact uartReceive_deviceOnly _ _ _ _ _ _
  · exact ⟨_, _, rfl⟩

theorem uartTick_deviceOnly (s : State) (u : UartId) : DeviceOnly s (uartTick s u) :=
  .trans (.ite (.ite (uartFinish_deviceOnly s u) (setUart_deviceOnly s u _)) (.refl s)) (uartStart_deviceOnly _ _)

theorem uartScale_deviceOnly (s : State) (u : UartId) : DeviceOnly s (uartScale s u) :=
  .ite ((setUart_deviceOnly s u _).trans (uartTick_deviceOnly _ _)) (setUart_deviceOnly s u _)

theorem uartClock_deviceOnly (s : State) (u : UartId) : DeviceOnly s (uartClock s u) := by
  unfold uartClock
  split
  · exact DeviceOnly.refl s
  · exact uartScale_deviceOnly s u

theorem uartExternalClock_deviceOnly (s : State) (u : UartId) : DeviceOnly s (uartExternalClock s u) := by
  unfold uartExternalClock
  split
  · exact uartScale_deviceOnly s u
  · exact DeviceOnly.refl s

theorem uartsClock_deviceOnly (s : State) : DeviceOnly s (uartsClock s) :=
  ((uartClock_deviceOnly _ _).trans (uartClock_deviceOnly _ _)).trans (uartClock_deviceOnly _ _)

theorem timersClock_deviceOnly (s : State) : DeviceOnly s (timersClock s) := by
  unfold timersClock
  split
  · exact DeviceOnly.refl s
  · exact ⟨_, _, rfl⟩

theorem clocks_deviceOnly {f : State → State} (hf : ∀ s, DeviceOnly s (f s)) : ∀ (n : Nat) (s : State), DeviceOnly s (clocks f n s)
  | 0, s => DeviceOnly.refl s
  | n + 1, s => (hf s).trans (clocks_deviceOnly hf n (f s))

theorem pollPort_deviceOnly (s : State) : DeviceOnly s (pollPort s) := by
  have poll (t : State) (k : Nat) :
      DeviceOnly t (if ioRequests t.dev.ioit (portLines s) t.dev.ioPrev k then t.pend (4 + k) else t) :=
    .ite (pend_deviceOnly _ _) (.refl t)
  refine .trans ((((poll s 0).trans (poll _ 1)).trans (poll _ 2)).trans (poll _ 3)) ?_
  exact ⟨_, _, rfl⟩

theorem pollLevels_deviceOnly (s : State) : DeviceOnly s (pollLevels s) := by
  have answered : DeviceOnly s (if bit s.dev.ahbStat 8 then s.pend 1 else s) := .ite (pend_deviceOnly _ _) (.refl s)
  exact .ite answered (answered.trans (pend_deviceOnly _ _))

/-! ### The invariant -/

theorem inv_of_reads {s t : State} (q : Reads s t) (h : Inv s) : Inv t := by
  obtain ⟨cpu, keepsWf, -⟩ := q
  simp only [State.cpu, Cpu.mk.injEq] at cpu
  obtain ⟨wf, pc, npc⟩ := h
  exact ⟨keepsWf wf, by simpa only [cpu] using pc, by simpa only [cpu] using npc⟩

theorem inv_of_quiet {s t : State} (q : Quiet s t) (h : Inv s) : Inv t := inv_of_reads q.reads h

theorem inv_of_deviceOnly {s t : State} (q : DeviceOnly s t) (h : Inv s) : Inv t := inv_of_quiet q.quiet h

theorem inv_of_pc {s t : State} (h : Inv s) (hm : t.mem = s.mem) (hf : t.memFlip = s.memFlip) (pc : WordAligned t.pc)
    (npc : WordAligned t.npc) : Inv t := by
  refine ⟨?_, pc, npc⟩
  have wf := h.1
  rwa [Memory.wf, ← hm, ← hf] at wf

theorem wordAligned_wordBase (a : Word) : WordAligned (wordBase a) := by
  unfold WordAligned wordBase
  ext i hi
  interval_cases i <;> simp

theorem wordAligned_four_add {a : Word} (h : WordAligned a) : WordAligned (a + 4) := wordAligned_add h rfl

/-- A trap-table address is a word address. -/
theorem wordAligned_tbrWord (tba : BitVec 20) (tt : BitVec 8) : WordAligned (tbrWord tba tt) := by
  change ((tba ++ tt : BitVec 28) ++ 0#4).extractLsb' 0 2 = 0
  ext i hi
  rw [BitVec.getElem_extractLsb']
  exact (BitVec.getLsbD_append (x := tba ++ tt) (y := 0#4)).trans (by simp [show i < 4 by omega])

theorem inv_enterDebug {s : State} (h : Inv s) (tt : BitVec 8) : Inv (enterDebug s tt) := h

theorem inv_advance {s : State} (h : Inv s) : Inv (advance s) :=
  inv_of_pc h rfl rfl h.2.2 (wordAligned_four_add h.2.2)

theorem inv_skipAnnulled {s : State} (h : Inv s) : Inv (skipAnnulled s) := by
  unfold skipAnnulled
  split
  · exact inv_advance h
  · exact h

theorem inv_enterTrap {s : State} (h : Inv s) (tt : BitVec 8) : Inv (enterTrap s tt) := by
  refine inv_of_pc h ?_ ?_ (wordAligned_tbrWord _ _) (wordAligned_four_add (wordAligned_tbrWord _ _))
  · simp [enterTrap]
  · simp [enterTrap]

theorem inv_trapState {s : State} {eff : State → State} (heff : ∀ t, ∃ f, eff t = { t with fsr := f }) (h : Inv s) (tt : BitVec 8) :
    Inv (trapState s eff tt) := by
  unfold trapState
  split
  · exact h
  split
  · exact h
  · obtain ⟨f, e⟩ := heff s
    rw [e]
    exact inv_enterTrap (s := { s with fsr := f }) h tt

theorem inv_asrWrite {s : State} (h : Inv s) (n : RegNum) (v : Word) : Inv (asrWrite s n v) := by
  unfold asrWrite
  repeat' split
  all_goals exact h

theorem inv_dsuFileWrite {s : State} (h : Inv s) (off : Nat) (v : Word) : Inv (dsuFileWrite s off v) := by
  unfold dsuFileWrite
  simp only
  repeat' split
  all_goals exact h

/-- PC and NPC written through the DSU are word addresses. -/
theorem inv_dsuCpuWrite {s : State} (h : Inv s) (off : Nat) (v : Word) : Inv (dsuCpuWrite s off v) := by
  unfold dsuCpuWrite
  split
  case h_5 => exact inv_of_pc h rfl rfl (wordAligned_wordBase v) h.2.2
  case h_6 => exact inv_of_pc h rfl rfl h.2.1 (wordAligned_wordBase v)
  case h_9 =>
    split
    · exact inv_asrWrite h _ _
    · exact h
  all_goals exact h

theorem inv_dsuCtrlWrite {s : State} (h : Inv s) (v : Word) : Inv (dsuCtrlWrite s v) := by
  unfold dsuCtrlWrite
  simp only
  repeat' split
  all_goals exact h

theorem inv_writeDsu {s : State} (h : Inv s) (off : Nat) (v : Word) : Inv (writeDsu s off v) := by
  unfold writeDsu
  split
  case h_1 => exact inv_dsuCtrlWrite h v
  case h_8 =>
    split
    · split
      · exact h
      · exact h
    split
    · exact h
    split
    · exact inv_dsuFileWrite h _ _
    split
    · exact inv_dsuCpuWrite h _ _
    split
    · exact inv_of_quiet (diagWrite_quiet _ _ _ _ _) h
    · exact h
  all_goals exact h

theorem inv_carried : Carried Inv where
  quiet q h := inv_of_quiet q h
  put a w f h := ⟨putWord_wf _ a w f h.1, h.2⟩
  dsu off v h := inv_writeDsu h off v

/-- Every elementary update of an instruction keeps the invariant. -/
theorem inv_stable : Stable Inv Inv where
  completes h := h
  trap eff tt heff h := inv_trapState heff h tt
  rettError tt h := by
    unfold Machine.rettError
    split <;> exact h
  ireg _ h := h
  freg _ h := h
  counted h := h
  free h := h
  advance h := inv_advance h
  jump target ht h := inv_of_pc h rfl rfl h.2.2 (ht h.2.1)
  annul h := h
  icc _ h := h
  cwp _ h := h
  y _ h := h
  fsr _ h := h
  flush c h := inv_of_quiet (flushCache_quiet _ c) h
  diagRead c t a h := inv_of_quiet (diagRead_quiet _ c t a) h
  diagWrite c t a v h := inv_of_quiet (diagWrite_quiet _ c t a v) h
  dataRead use a sz h := (dataRead_reads _ use a sz).mono fun _ r => inv_of_reads r h
  physRead a sz h := (busRead_reads _ .iu false a sz).mono fun _ r => inv_of_reads r h
  dataWrite a sz v h := inv_carried.dataWrite a sz v h
  psr _ _ h := h
  wim _ _ h := h
  tba _ _ h := h
  asr n v _ h := inv_asrWrite h n v

/-! ### The environment keeps the invariant -/

theorem inv_busRead {s : State} (h : Inv s) (m : Master) (f : Bool) (a : Word) (sz : Size) : (busRead s m f a sz).All Inv :=
  (busRead_reads s m f a sz).mono fun _ r => inv_of_reads r h

theorem inv_timeTagClock {s : State} (h : Inv s) : Inv (timeTagClock s) := by
  unfold timeTagClock
  split <;> exact h

theorem inv_clocks {f : State → State} (hf : ∀ s, Machine.Inv s → Machine.Inv (f s)) : ∀ (n : Nat) {s : State}, Inv s → Inv (clocks f n s)
  | 0, _, h => h
  | n + 1, _, h => inv_clocks hf n (hf _ h)

theorem inv_advanceDevices {s : State} (h : Inv s) (n : Nat) : Inv (advanceDevices n s) :=
  inv_clocks (fun _ => inv_timeTagClock) n
    (inv_of_deviceOnly ((clocks_deviceOnly timersClock_deviceOnly n _).trans (clocks_deviceOnly uartsClock_deviceOnly n _)) h)

/-- The reset values of pc and npc are word addresses, and memory stays. -/
theorem inv_warmReset {s : State} (h : Inv s) : Inv (warmReset s) := inv_of_pc h rfl rfl rfl (rfl : WordAligned 4#32)

theorem inv_leaveDebug {s : State} (h : Inv s) : Inv (leaveDebug s) := h

theorem inv_setPins {s : State} (h : Inv s) (p : Pins) : Inv (setPins s p) := by
  have started : Inv (uartStart (uartStart (uartStart { s with pins := p } .u1) .u2) .u3) :=
    inv_of_deviceOnly (((uartStart_deviceOnly _ _).trans (uartStart_deviceOnly _ _)).trans (uartStart_deviceOnly _ _)) h
  unfold setPins
  simp only
  generalize uartStart (uartStart (uartStart { s with pins := p } .u1) .u2) .u3 = s1 at started ⊢
  have clocked : Inv (if !s.pins.pio.getLsbD 3 && p.pio.getLsbD 3 then
      uartExternalClock (uartExternalClock (uartExternalClock s1 .u1) .u2) .u3 else s1) := by
    split
    · exact inv_of_deviceOnly (((uartExternalClock_deviceOnly _ _).trans (uartExternalClock_deviceOnly _ _)).trans
        (uartExternalClock_deviceOnly _ _)) started
    · exact started
  generalize (if !s.pins.pio.getLsbD 3 && p.pio.getLsbD 3 then
      uartExternalClock (uartExternalClock (uartExternalClock s1 .u1) .u2) .u3 else s1) = s2 at clocked ⊢
  repeat' split
  all_goals exact clocked

theorem inv_emit {s : State} (h : Inv s) (o : Output) : Inv (s.emit o) := h

theorem inv_pciHostRead {s : State} (h : Inv s) (off : BitVec 8) : Inv (pciHostRead s off) := h

theorem inv_readAhead : ∀ (n : Nat) (a : Word) {s : State}, Inv s → Inv (readAhead n a s).2
  | 0, _, _, h => h
  | n + 1, a, s, h => by
    unfold readAhead
    split
    · next b _ =>
      have read := inv_busRead h .pci false (wordBase b) .word
      generalize busRead s .pci false (wordBase b) .word = r at read ⊢
      cases r with
      | ok v t => exact inv_readAhead n (a + 4) read
      | err t => exact read
      | refuse r => exact h
    · exact h

theorem inv_pciBusRead {s : State} (h : Inv s) (pf : Bool) (a b : Word) (n : Nat) : Inv (pciBusRead s pf a b n) := by
  have start : Inv (if pf then { s with pci := { s.pci with heldAhb := Held.empty } } else s) := by
    split <;> exact h
  unfold pciBusRead
  generalize (if pf then { s with pci := { s.pci with heldAhb := Held.empty } } else s) = s0 at start ⊢
  have read := inv_busRead start .pci false b .word
  generalize busRead s0 .pci false b .word = r at read ⊢
  cases r with
  | ok v t =>
    have ahead := inv_readAhead (if pf then n else 0) (a + 4) read
    cases pf <;> exact ahead
  | err t => exact read
  | refuse r => exact h

theorem inv_pciMasterRead {s : State} (h : Inv s) (a : Word) (n : Nat) : Inv (pciMasterRead s a n) := by
  unfold pciMasterRead
  split
  · split
    · exact inv_pciHostRead h _
    · exact h
  · split
    · exact h
    · exact inv_pciBusRead h _ _ _ _

theorem inv_pciMasterWrite {s : State} (h : Inv s) (a v : Word) : Inv (pciMasterWrite s a v) := by
  unfold pciMasterWrite
  split
  · split <;> exact h
  · next b _ =>
    simp only
    have written := inv_carried.busWrite (s := { s with pci := { s.pci with heldAhb := Held.empty } }) .pci (wordBase b) .word v h
    generalize busWrite { s with pci := { s.pci with heldAhb := Held.empty } } .pci (wordBase b) .word v = r at written ⊢
    cases r with
    | ok u t => exact written
    | err t => exact written
    | refuse r => exact h

theorem inv_dmaWriteMove {s : State} (h : Inv s) (ok : Bool) : Inv (dmaWriteMove s ok) := by
  unfold dmaWriteMove
  simp only
  have read := inv_busRead h .pci false s.pci.wdma.ahbAddr (if dmaWordwise s.pci.wdma then .word else .byte)
  generalize busRead s .pci false s.pci.wdma.ahbAddr (if dmaWordwise s.pci.wdma then .word else .byte) = r at read ⊢
  cases r with
  | ok v t =>
    simp only
    repeat' split
    all_goals exact read
  | err t => exact read
  | refuse r => exact h

theorem inv_dmaReadMove {s : State} (h : Inv s) (answer : Option Word) : Inv (dmaReadMove s answer) := by
  unfold dmaReadMove
  cases answer with
  | none => exact h
  | some w =>
    simp only
    have start : Inv (if dmaWordwise s.pci.rdma then s else s.free.2) := by
      split <;> exact h
    generalize (if dmaWordwise s.pci.rdma then s else s.free.2) = s0 at start ⊢
    generalize (if dmaWordwise s.pci.rdma then w else s.free.1 &&& 0xFF#32) = v
    generalize (if dmaWordwise s.pci.rdma then (4 : Nat) else 1) = n
    generalize (if dmaWordwise s.pci.rdma then Size.word else .byte) = sz
    have written := inv_carried.busWrite .pci s.pci.rdma.ahbAddr sz v
      (inv_emit start (.pciRead s.pci.rdma.cmd s.pci.rdma.pciAddr (BitVec.ofNat 4 n)))
    generalize busWrite (s0.emit (.pciRead s.pci.rdma.cmd s.pci.rdma.pciAddr (BitVec.ofNat 4 n))) .pci s.pci.rdma.ahbAddr sz v = r
      at written ⊢
    cases r with
    | ok u t => exact written
    | err t => exact written
    | refuse r => exact start

theorem inv_dmaMove {s : State} (h : Inv s) (ch : DmaChannel) (answer : Option Word) : Inv (dmaMove s ch answer) := by
  unfold dmaMove
  split
  · cases ch with
    | write => exact inv_dmaWriteMove h _
    | read => exact inv_dmaReadMove h _
  · exact h

theorem inv_linkRespond {s : State} (h : Inv s) : Inv (linkRespond s) := by
  unfold linkRespond
  split <;> exact h

theorem inv_linkReadWord {s : State} (h : Inv s) (a : Word) : Inv (linkReadWord s a) := by
  unfold linkReadWord
  split
  · exact h
  have read := inv_busRead h .dsu false (wordBase a) .word
  generalize busRead s .dsu false (wordBase a) .word = r at read ⊢
  cases r with
  | ok v t => exact inv_linkRespond (inv_emit read _)
  | err t => exact inv_linkRespond (inv_emit (s := t.free.2) read _)
  | refuse r => exact inv_linkRespond (inv_emit (s := s.free.2) h _)

theorem inv_linkWriteWord {s : State} (h : Inv s) (a v : Word) : Inv (linkWriteWord s a v) := by
  unfold linkWriteWord
  split
  · exact h
  have written := inv_carried.busWrite .dsu (wordBase a) .word v h
  generalize busWrite s .dsu (wordBase a) .word v = r at written ⊢
  cases r with
  | ok u t => exact inv_linkRespond written
  | err t => exact inv_linkRespond written
  | refuse r => exact inv_linkRespond h

theorem inv_linkReadWords : ∀ (n : Nat) (a : Word) {s : State}, Inv s → Inv (linkReadWords n a s)
  | 0, _, _, h => h
  | n + 1, a, _, h => inv_linkReadWords n (a + 4) (inv_linkReadWord h a)

theorem inv_linkWriteWords (n : Nat) (a : Word) (l : List Byte) {s : State} (h : Inv s) : Inv (linkWriteWords n a l s) := by
  induction n, a, l, s using linkWriteWords.induct with
  | case1 n a b0 b1 b2 b3 rest s ih => exact ih (inv_linkWriteWord h _ _)
  | case2 n a l s other => rwa [linkWriteWords]; exact other

theorem inv_linkCommand {s : State} (h : Inv s) (l : List Byte) : Inv (linkCommand s l) := by
  unfold linkCommand
  split
  · simp only
    split
    · exact h
    split
    · exact inv_linkReadWords _ _ h
    · exact inv_linkWriteWords _ _ _ h
  · exact h

theorem inv_upsetMemory {s : State} (h : Inv s) (w : BitVec 30) (f : BitVec 39) : Inv (upsetMemory s w f) := by
  unfold upsetMemory
  simp only
  split
  · exact inv_carried.put _ _ _ h
  · exact h

theorem inv_applyEvent {s : State} (h : Inv s) (e : EnvEvent) : Inv (applyEvent s e) := by
  cases e with
  | setPins p => exact inv_setPins h p
  | uartRx u b parity framing brk =>
    simp only [applyEvent]
    split
    · exact h
    · exact inv_of_deviceOnly (uartReceive_deviceOnly _ _ _ _ _ _) h
  | pciRead a ahead => exact inv_pciMasterRead h a ahead
  | pciWrite a v => exact inv_pciMasterWrite h a v
  | pciCfgRead off => exact inv_pciHostRead h off
  | dmaMove ch x => exact inv_dmaMove h ch x
  | dmaParity ch =>
    simp only [applyEvent]
    split <;> exact h
  | linkRead a => exact inv_linkReadWord h a
  | linkWrite a v => exact inv_linkWriteWord h a v
  | linkCommand bytes => exact inv_linkCommand h bytes
  | upsetMem w f => exact inv_upsetMemory h w f
  | upsetCache i t k d p => exact inv_of_quiet (setCache_quiet _ _ _) h
  | reset => exact inv_warmReset h
  | _ => exact h

theorem inv_applyEvents (l : List EnvEvent) {s : State} (h : Inv s) : Inv (applyEvents l s) := by
  induction l generalizing s with
  | nil => exact h
  | cons e l ih => exact ih (inv_applyEvent h e)

theorem inv_takeBreak {s : State} (h : Inv s) : Inv (takeBreak s) := by
  unfold takeBreak
  repeat' split
  all_goals exact h

theorem inv_wake {s : State} (h : Inv s) : Inv (wake s) := by
  unfold wake
  split <;> exact h

theorem inv_showPins {s : State} (h : Inv s) : Inv (showPins s) := by
  unfold showPins
  split <;> exact h

theorem inv_settle {s : State} (h : Inv s) : Inv (settle s) :=
  inv_showPins (inv_takeBreak (inv_wake (inv_of_deviceOnly ((pollPort_deviceOnly s).trans (pollLevels_deviceOnly _)) h)))

theorem inv_watchdogReset {s : State} (h : Inv s) : Inv (watchdogReset s) := by
  unfold watchdogReset
  split
  · exact inv_warmReset h
  · exact h

theorem inv_passTime {s : State} (h : Inv s) (n : Nat) (l : List EnvEvent) : Inv (passTime n l s) :=
  inv_settle (inv_applyEvents _ (s := discardHeld _) (inv_applyEvents _ (inv_watchdogReset (inv_advanceDevices h n))))

theorem inv_boundary {s : State} (h : Inv s) (cycles : Nat) : Inv (boundary s cycles) := by
  unfold boundary
  split
  · exact inv_passTime h _ _
  · next e rest _ => exact inv_passTime (s := { s with env := rest }) h (e.elapsed cycles) e.events

/-! ### One step keeps the invariant -/

theorem inv_traceLines (pc w : Word) (hit trapped err multi : Bool) (l : List (Option Word)) {t : State} (h : Inv t) :
    Inv (traceLines pc w hit trapped err multi l t) := by
  induction l generalizing multi t with
  | nil => exact h
  | cons v rest ih => exact ih true (inv_of_quiet ((traceField_quiet t v).trans (traceInstrLine_quiet _ _)) h)

theorem inv_traceInstr {w : Word} {s s1 t : State} {execute : Instr → State → Result} (h : Inv t) :
    Inv (traceInstr w s s1 t execute) := by
  unfold traceInstr
  split
  · exact inv_traceLines _ _ _ _ _ _ _ h
  · exact h

theorem inv_afterInstr {w : Word} {s s1 t : State} {execute : Instr → State → Result} (hs : Inv s) (ht : Inv t) :
    Inv (afterInstr w s s1 t execute) := by
  unfold afterInstr
  split
  · exact inv_enterDebug (inv_of_quiet (dsuHit_quiet s) hs) _
  split
  · exact hs
  simp only
  have traced : Inv (traceInstr w s s1 (skipAnnulled t) execute) := inv_traceInstr (inv_skipAnnulled ht)
  split
  · exact inv_of_quiet (dsuHit_quiet _) traced
  · exact traced

theorem inv_takeInterrupt {s : State} (h : Inv s) : Inv (takeInterrupt s) := by
  unfold takeInterrupt
  simp only
  split
  · exact h
  · exact inv_enterTrap (inv_of_quiet (freezeCaches_quiet _) (s := { s with dev := _ }) h) _

theorem inv_execWord {s t : State} {w : Word} (h : Inv s) (e : execWord w s exec = .next t) : Inv t := by
  have done : Ends Inv (execWord w s exec) := by
    unfold execWord
    split
    · exact inv_stable.exec _ h
    · exact inv_stable.fpUnimplemented h
    · exact inv_stable.raise _ h
  rwa [e] at done

theorem inv_instrStep {s : State} (h : Inv s) : Ends Inv (instrStep s exec) := by
  have fetched := fetchWord_reads s s.pc
  unfold instrStep
  generalize fetchWord s s.pc = f at fetched ⊢
  cases f with
  | refuse r => trivial
  | err s1 =>
    have lost : Inv (lostOpcode s1).2 := by
      unfold lostOpcode
      split <;> exact inv_of_reads fetched h
    exact inv_boundary (inv_afterInstr h (inv_trapState (fun t => ⟨t.fsr, rfl⟩) lost _)) _
  | ok w s1 =>
    simp only
    split
    · next t e =>
      have run : Inv t := inv_execWord (inv_of_reads fetched h) e
      split
      · exact inv_boundary (s := endStep s (takeInterrupt s)) (inv_takeInterrupt h) _
      · exact inv_boundary (inv_afterInstr h run) _
    · trivial
    · trivial

theorem inv_breakpointStep {s : State} (h : Inv s) : Ends Inv (breakpointStep s exec) := by
  unfold breakpointStep
  simp only
  generalize hs1 : ({ s with dsu := { s.dsu with hitInstr := bpInstr s s.pc } } : State) = s1
  have h1 : Inv s1 := hs1 ▸ h
  split
  · exact inv_boundary (s := breakNow s1) (inv_enterDebug (inv_of_quiet (dsuHit_quiet s1) h1) _) _
  · exact inv_instrStep h1

/-- Settles O3: every piece of a step keeps the invariant, the instruction by its elementary updates. -/
theorem stepKeepsInv : Obligations.StepKeepsInv := by
  intro s t h e
  have done : Ends Inv (step s) := by
    unfold step machineStep
    split
    · exact inv_boundary h _
    split
    · exact inv_boundary h _
    · exact inv_breakpointStep (s := { skipAnnulled s with trapped := false, powerDown := false }) (inv_skipAnnulled h)
  rwa [e] at done

end Sys2Proof.Proofs

/-! PROOFS. One step: the word fetched and run, the interrupt controller, trap entry, error mode. -/

namespace Sys2Proof.Proofs

open Sys2Proof Sys2Proof.Machine

/-- Settles O2: both lists of memory are empty at reset, pc is 0 and npc 4. -/
theorem resetInv : Obligations.ResetInv := ⟨rfl, rfl, rfl⟩

/-- Settles O35. -/
theorem macRefused : Obligations.MacRefused := fun _ _ _ _ => ⟨rfl, rfl⟩

/-! ### A step runs the decoded instruction -/

theorem readProm_clean {s : State} {a : Word} (fetching : Bool) (free : s.flipAt a.toNat = 0) (erb : erbOn s.dev = false) :
    readProm s fetching a = (some (s.wordAt a.toNat), s) := by
  unfold readProm
  simp only [free, erb, edacFix_zero, fixData_zero]
  split <;> simp

/-- A plain fetch gives the word at pc and changes nothing. -/
theorem fetchWord_plain {s : State} (h : PlainFetch s) : fetchWord s s.pc = .ok (s.wordAt s.pc.toNat) s := by
  obtain ⟨area, base, bus, erb, free, off, idle⟩ := h
  unfold fetchWord
  rw [if_neg (by simp [off])]
  rcases area with prom | ⟨ram, bank⟩
  · have read : areaRead s true s.pc .word = .ok (s.wordAt s.pc.toNat) s := by
      simp [areaRead, prom, bus, base, readProm_clean true free erb, subword, Size.bytes]
    simp [busRead, read, dsuSeesBus_idle idle]
  · rw [busRead_readable ⟨ram, bank, bus, erb, by rwa [base], idle⟩, base]
    rfl

/-- Where no breakpoint hits, the step starts in the state `ready`. -/
theorem step_of_runs {s : State} (h : Runs s) : step s = instrStep s.ready exec := by
  obtain ⟨run, debug, awake, clear⟩ := h
  have asleep : (s.powerDown && decide (bpIrl s.dev = 0)) = false := by
    rcases awake with up | irq
    · simp [up]
    · simp [irq]
  unfold step machineStep breakpointStep
  simp only [run, debug, asleep, clear, Bool.or_self, Bool.false_eq_true, if_false, breaksHere, Bool.false_and]
  rfl

/-- Settles O9. -/
theorem stepRunsInstruction : Obligations.StepRunsInstruction := by
  intro s i runs fetch decoded
  rw [step_of_runs runs]
  unfold instrStep
  simp only [fetchWord_plain fetch, execWord, decoded]
  cases exec i s.ready with
  | next t => simp [stepEnds]
  | fault f => rfl
  | refused r => rfl

/-! ### The interrupt controller -/

/-- `highestBit r k` is the largest of 1..k whose bit is set, or 0 if there is none. -/
theorem highestBit_spec (r : BitVec 16) (k : Nat) :
    (∀ n, 1 ≤ n → n ≤ k → r.getLsbD n = true → n ≤ highestBit r k) ∧ highestBit r k ≤ k ∧
      (highestBit r k ≠ 0 → r.getLsbD (highestBit r k) = true) := by
  induction k with
  | zero => exact ⟨fun n _ hn _ => hn, le_refl 0, fun h => absurd rfl h⟩
  | succ k ih =>
    obtain ⟨largest, bound, set⟩ := ih
    unfold highestBit
    split
    · next top => exact ⟨fun n _ hn _ => hn, le_refl _, fun _ => top⟩
    · next top =>
      refine ⟨fun n h1 hn hb => ?_, by omega, set⟩
      rcases Nat.lt_or_ge k n with above | below
      · obtain rfl : n = k + 1 := by omega
        exact absurd hb top
      · exact largest n h1 below hb

theorem irqRequest_bit (d : Dev) {n : Nat} (h1 : 1 ≤ n) (hn : n ≤ 15) :
    (irqRequest d).getLsbD n = ((d.ipend.getLsbD n || d.iforce.getLsbD n) && d.ilevelMask.getLsbD n) := by
  have enabled : (0xFFFE#16).getLsbD n = true := by interval_cases n <;> rfl
  simp [irqRequest, enabled, show n < 16 by omega]

theorem bpIrl_le (d : Dev) : bpIrl d ≤ 15 := by
  unfold bpIrl
  simp only
  split
  · exact (highestBit_spec _ 15).2.1
  · exact (highestBit_spec _ 15).2.1

/-- Settles O10, by what `highestBit` finds among all requests and among those of level 1. -/
theorem interruptSelection : Obligations.InterruptSelection := by
  intro d req high
  have req_iff (n : Nat) : req n ↔ 1 ≤ n ∧ n ≤ 15 ∧ (irqRequest d).getLsbD n = true := by
    refine and_congr_right fun h1 => and_congr_right fun hn => ?_
    rw [irqRequest_bit d h1 hn, Bool.and_eq_true, Bool.or_eq_true]
  have high_iff (n : Nat) : high n ↔ 1 ≤ n ∧ n ≤ 15 ∧ (irqRequest d &&& d.ilevelMask.extractLsb' 16 16).getLsbD n = true := by
    have level (hn : n ≤ 15) : (d.ilevelMask.extractLsb' 16 16).getLsbD n = d.ilevelMask.getLsbD (16 + n) := by
      simp [show n < 16 by omega]
    constructor
    · rintro ⟨hr, hl⟩
      obtain ⟨h1, hn, hb⟩ := (req_iff n).1 hr
      exact ⟨h1, hn, by rw [BitVec.getLsbD_and, hb, level hn, hl]; rfl⟩
    · rintro ⟨h1, hn, hb⟩
      rw [BitVec.getLsbD_and, level hn, Bool.and_eq_true] at hb
      exact ⟨(req_iff n).2 ⟨h1, hn, hb.1⟩, hb.2⟩
  obtain ⟨largest, bound, set⟩ := highestBit_spec (irqRequest d) 15
  obtain ⟨largestHigh, boundHigh, setHigh⟩ := highestBit_spec (irqRequest d &&& d.ilevelMask.extractLsb' 16 16) 15
  unfold bpIrl
  simp only
  refine ⟨?_, ?_, ?_⟩
  · rintro ⟨n, hn⟩
    obtain ⟨h1, h15, hb⟩ := (high_iff n).1 hn
    have found := largestHigh n h1 h15 hb
    rw [if_pos (by omega)]
    refine ⟨(high_iff _).2 ⟨by omega, boundHigh, setHigh (by omega)⟩, fun m hm => ?_⟩
    obtain ⟨m1, m15, mb⟩ := (high_iff m).1 hm
    exact largestHigh m m1 m15 mb
  · rintro none ⟨n, hn⟩
    obtain ⟨h1, h15, hb⟩ := (req_iff n).1 hn
    have found := largest n h1 h15 hb
    rw [if_neg fun found => none ⟨_, (high_iff _).2 ⟨by omega, boundHigh, setHigh found⟩⟩]
    refine ⟨(req_iff _).2 ⟨by omega, bound, set (by omega)⟩, fun m hm => ?_⟩
    obtain ⟨m1, m15, mb⟩ := (req_iff m).1 hm
    exact largest m m1 m15 mb
  · intro none
    rw [if_neg fun found => none ⟨_, ((high_iff _).2 ⟨by omega, boundHigh, setHigh found⟩).1⟩]
    by_contra found
    exact none ⟨_, (req_iff _).2 ⟨by omega, bound, set found⟩⟩

/-! ### Trap entry -/

theorem interruptTaken_iff (s : State) : interruptTaken s = true ↔ s.psr.et = true ∧ s.psr.pil.toNat < bpIrl s.dev := by
  simp [interruptTaken, Config.irl15Nonmaskable]

theorem interrupt_tt (n : Nat) : 0x10#8 + BitVec.ofNat 8 n = BitVec.ofNat 8 (0x10 + n) := (BitVec.ofNat_add 0x10 n).symm

theorem getLsbD_clear (x : BitVec 16) (n k : Nat) :
    (x &&& ~~~(1#16 <<< n)).getLsbD k = (x.getLsbD k && decide (k ≠ n)) := by
  rw [BitVec.getLsbD_and, BitVec.getLsbD_not, BitVec.getLsbD_shiftLeft, BitVec.getLsbD_one]
  by_cases hk : k < 16
  · by_cases e : k = n
    · subst e
      simp [hk]
    · have : k < n ∨ ¬k - n = 0 := by omega
      simp [hk, e, this]
  · simp [BitVec.getLsbD_of_ge x k (by omega)]

theorem and_bit_eq_zero_iff (x : BitVec 16) {n : Nat} (hn : n < 16) : x &&& (1#16 <<< n) = 0 ↔ x.getLsbD n = false := by
  constructor
  · intro h
    have := congrArg (·.getLsbD n) h
    simpa [hn] using this
  · intro h
    ext k hk
    by_cases e : k = n
    · subst e
      simp [← BitVec.getLsbD_eq_getElem, h]
    · have : k < n ∨ ¬k - n = 0 := by omega
      rcases this with l | l <;> simp [l]

/-- Interrupt `n` acknowledges itself in IFORCE where that forces it, else in IPEND. -/
theorem acknowledge_spec (d : Dev) {n : Nat} (hn : n < 16) :
    d.acknowledge n = { d with ipend := (d.acknowledge n).ipend, iforce := (d.acknowledge n).iforce } ∧
      (∀ k, (d.acknowledge n).iforce.getLsbD k = (d.iforce.getLsbD k && decide (k ≠ n))) ∧
      ∀ k, (d.acknowledge n).ipend.getLsbD k = (d.ipend.getLsbD k && (decide (k ≠ n) || d.iforce.getLsbD n)) := by
  unfold Dev.acknowledge
  simp only [and_bit_eq_zero_iff _ hn]
  split
  · next free =>
    refine ⟨rfl, fun k => ?_, fun k => ?_⟩
    · by_cases e : k = n
      · subst e
        simp [free]
      · simp [e]
    · rw [getLsbD_clear, free, Bool.or_false]
  · next forced =>
    refine ⟨rfl, fun k => getLsbD_clear _ _ _, fun k => ?_⟩
    simp [eq_true_of_ne_false forced]

theorem freezeCaches_spec (s : State) :
    (freezeCaches s) = { s with dev := { s.dev with ccr := (freezeCaches s).dev.ccr } } ∧
      (bit s.dev.ccr 4 = false → bit s.dev.ccr 5 = false → (freezeCaches s).dev.ccr = s.dev.ccr) :=
  ⟨rfl, fun h4 h5 => by simp [freezeCaches, h4, h5]⟩

/-- An interrupt that the DSU does not take over enters its trap, from a state whose controller and CCR alone have changed. -/
theorem takeInterrupt_enters {s : State} (inj : NoInjection s) (hd : debugOnTrap s (BitVec.ofNat 8 (0x10 + bpIrl s.dev)) = false) :
    (takeInterrupt s).dev = (freezeCaches { s with dev := s.dev.acknowledge (bpIrl s.dev) }).dev ∧
      EntersTrap { s with dev := (takeInterrupt s).dev } (takeInterrupt s) (BitVec.ofNat 8 (0x10 + bpIrl s.dev)) := by
  have taken : takeInterrupt s = enterTrap (freezeCaches { s with dev := s.dev.acknowledge (bpIrl s.dev) })
      (BitVec.ofNat 8 (0x10 + bpIrl s.dev)) := by
    unfold takeInterrupt
    simp only [interrupt_tt, hd, Bool.false_eq_true, if_false]
  have dev : (takeInterrupt s).dev = (freezeCaches { s with dev := s.dev.acknowledge (bpIrl s.dev) }).dev := by
    rw [taken]
    simp [enterTrap]
  refine ⟨dev, ?_⟩
  rw [dev, taken]
  exact enterTrap_spec (s := freezeCaches { s with dev := s.dev.acknowledge (bpIrl s.dev) }) inj _

/-- Settles O11. -/
theorem trapEntry : Obligations.TrapEntry := by
  intro s inj
  refine ⟨fun tt f can => ⟨?_, ?_⟩, interruptTaken_iff s, fun taken => ?_, ?_⟩
  · rw [trapState_taken can]
    exact enterTrap_spec (s := { s with fsr := f }) inj tt
  · rw [trapState_taken can]
    exact enterTrap_spec inj tt
  · obtain ⟨et, above⟩ := (interruptTaken_iff s).1 taken
    have le := bpIrl_le s.dev
    refine ⟨et, above, by omega, le, fun hd => ?_⟩
    obtain ⟨dev, enters⟩ := takeInterrupt_enters inj hd
    obtain ⟨frame, force, pend⟩ := acknowledge_spec s.dev (show bpIrl s.dev < 16 by omega)
    refine ⟨enters, ?_, ?_, ?_, ?_⟩
    · rw [dev, (freezeCaches_spec _).1]
      simp only
      rw [frame]
    · intro h4 h5
      rw [dev, (freezeCaches_spec _).2 (by rw [frame]; exact h4) (by rw [frame]; exact h5), frame]
    · rw [dev]
      exact force
    · rw [dev]
      exact pend
  · intro tt turned debug
    refine ⟨fun eff => ?_, fun e => ?_⟩
    · unfold trapState
      rw [if_pos debug]
      rfl
    · unfold takeInterrupt
      simp only [interrupt_tt]
      rw [← e, if_pos debug]
      rfl

/-! ### Error mode -/

/-- From `s` to `t` nothing changes but devices, the bridge, the time tag, power-down and what the pins show. -/
def IdlesTo (s t : State) : Prop :=
  ∃ d i u p l o, t = { s with dev := d, pci := i, dsu := { s.dsu with timeTag := u }, powerDown := p, lines := l, out := o }

theorem IdlesTo.trans {s t u : State} (h : IdlesTo s t) (k : IdlesTo t u) : IdlesTo s u := by
  obtain ⟨_, _, _, _, _, _, rfl⟩ := h
  obtain ⟨_, _, _, _, _, _, rfl⟩ := k
  exact ⟨_, _, _, _, _, _, rfl⟩

theorem DeviceOnly.idles {s t : State} (h : DeviceOnly s t) : IdlesTo s t := by
  obtain ⟨d, o, rfl⟩ := h
  exact ⟨d, s.pci, s.dsu.timeTag, s.powerDown, s.lines, o, rfl⟩

theorem IdlesTo.breakReq {s t : State} (h : IdlesTo s t) : t.dsu.breakReq = s.dsu.breakReq := by
  obtain ⟨_, _, _, _, _, _, rfl⟩ := h
  rfl

theorem IdlesTo.errorMode {s t : State} (h : IdlesTo s t) : t.errorMode = s.errorMode := by
  obtain ⟨_, _, _, _, _, _, rfl⟩ := h
  rfl

theorem IdlesTo.quiet {s t : State} (h : IdlesTo s t) : Quiet s t := by
  obtain ⟨_, _, _, _, _, _, rfl⟩ := h
  exact ⟨rfl, rfl, rfl⟩

theorem timeTagClock_idles (s : State) : IdlesTo s (timeTagClock s) := by
  unfold timeTagClock
  split
  · exact (DeviceOnly.refl s).idles
  · exact ⟨s.dev, s.pci, s.dsu.timeTag - 1, s.powerDown, s.lines, s.out, rfl⟩

theorem advanceDevices_idles (s : State) : IdlesTo { s with clk := s.clk + 1 } (advanceDevices 1 s) :=
  ((timersClock_deviceOnly _).trans (uartsClock_deviceOnly _)).idles.trans (timeTagClock_idles _)

theorem wake_idles (s : State) : IdlesTo s (wake s) := by
  unfold wake
  split
  · exact (DeviceOnly.refl s).idles
  · exact ⟨s.dev, s.pci, s.dsu.timeTag, false, s.lines, s.out, rfl⟩

theorem showPins_idles (s : State) : IdlesTo s (showPins s) := by
  unfold showPins
  split
  · exact (DeviceOnly.refl s).idles
  · exact ⟨s.dev, s.pci, s.dsu.timeTag, s.powerDown, _, _, rfl⟩

theorem takeBreak_calm {s : State} (calm : s.dsu.breakReq = false) : takeBreak s = s := by
  simp [takeBreak, calm]

theorem settle_idles {s : State} (calm : s.dsu.breakReq = false) : IdlesTo s (settle s) := by
  have polled : IdlesTo s (wake (pollLevels (pollPort s))) :=
    ((pollPort_deviceOnly s).trans (pollLevels_deviceOnly _)).idles.trans (wake_idles _)
  unfold settle
  rw [takeBreak_calm (polled.breakReq.trans calm)]
  exact polled.trans (showPins_idles _)

/-- With no event and no break requested, one cycle leaves the IU, the FPU and memory alone. -/
theorem passTime_idles {s : State} (calm : s.dsu.breakReq = false) : IdlesTo { s with clk := s.clk + 1 } (passTime 1 [] s) := by
  have devices : IdlesTo { s with clk := s.clk + 1 } (discardHeld (advanceDevices 1 s)) :=
    (advanceDevices_idles s).trans ⟨_, _, _, _, _, _, rfl⟩
  exact devices.trans (settle_idles (devices.breakReq.trans calm))

/-- Settles O12: in error mode a step is the boundary alone. -/
theorem errorMode : Obligations.ErrorMode := by
  refine ⟨fun s tt et debug => raise_errorMode et debug, fun s t err env calm run => ?_⟩
  have stepped : t = passTime 1 [] s := by
    unfold step machineStep at run
    simp only [err, Bool.true_or, if_true, boundary, env] at run
    cases run
    rfl
  have idles : IdlesTo { s with clk := s.clk + 1 } t := stepped ▸ passTime_idles calm
  exact ⟨idles.errorMode.trans err, idles.quiet.1, idles.quiet.2.1⟩

end Sys2Proof.Proofs

/-! PROOFS. The integer instructions that write a register: logical, shift, add and subtract, multiply, divide, SETHI and NOP. -/

namespace Sys2Proof.Proofs

open Sys2Proof Sys2Proof.Machine

/-! ### Shapes -/

/-- Writing a register and writing icc do not look at each other. -/
theorem setIcc_writeR (s : State) (rd : RegNum) (v : Word) (x : Icc) : setIcc (writeR s rd v) x = writeR (setIcc s x) rd v := by
  unfold writeR
  split <;> rfl

theorem y_writeR (s : State) (rd : RegNum) (v y : Word) : { writeR s rd v with y := y } = writeR { s with y := y } rd v := by
  unfold writeR
  split <;> rfl

section
variable {s : State} (hp : Plain s) (rd rs1 : RegNum) (op2 : RegImm)
include hp

theorem intOp_completes (f : Word → Word → Word) :
    Completes (intOp s rd rs1 op2 f) s rd (f (s.r rs1) (s.operand2 op2)) := by
  obtain ⟨watch, clean, inj⟩ := hp
  rw [intOp, checked_nil watch, withOperands_clean clean]
  exact completes_writeR inj rd _

theorem intOpCc_completes (f : Word → Word → Word) (x : Word → Word → Word → Icc) :
    Completes (intOpCc s rd rs1 op2 f x)
      (setIcc s (x (s.r rs1) (s.operand2 op2) (f (s.r rs1) (s.operand2 op2)))) rd (f (s.r rs1) (s.operand2 op2)) := by
  obtain ⟨watch, clean, inj⟩ := hp
  rw [intOpCc, checked_nil watch, withOperands_clean clean, setIcc_writeR]
  exact completes_writeR (u := setIcc s _) inj rd _

/-- The shift count that an operand gives (41 section 4). -/
def shiftCount (s : State) : ShiftArg → BitVec 5
  | .reg rs2 => (s.r rs2).extractLsb' 0 5
  | .imm n => n

theorem shiftOp_completes (cnt : ShiftArg) (f : Word → BitVec 5 → Word) :
    Completes (shiftOp s rd rs1 cnt f) s rd (f (s.r rs1) (shiftCount s cnt)) := by
  obtain ⟨watch, clean, inj⟩ := hp
  rw [shiftOp, checked_nil watch, withShift, withR_clean clean]
  cases cnt with
  | reg rs2 =>
    simp only [withR_clean clean]
    exact completes_writeR inj rd _
  | imm n => exact completes_writeR inj rd _

theorem mulOp_completes (f : Word → Word → BitVec 64) :
    Completes (mulOp s rd rs1 op2 f) { s with y := (f (s.r rs1) (s.operand2 op2)).extractLsb' 32 32 } rd
      ((f (s.r rs1) (s.operand2 op2)).extractLsb' 0 32) := by
  obtain ⟨watch, clean, inj⟩ := hp
  rw [mulOp, checked_nil watch, withOperands_clean clean, putProduct, y_writeR]
  exact completes_writeR (u := { s with y := (f (s.r rs1) (s.operand2 op2)).extractLsb' 32 32 }) inj rd _

theorem mulOpCc_completes (f : Word → Word → BitVec 64) :
    Completes (mulOpCc s rd rs1 op2 f)
      { setIcc s (iccLogic ((f (s.r rs1) (s.operand2 op2)).extractLsb' 0 32)) with
        y := (f (s.r rs1) (s.operand2 op2)).extractLsb' 32 32 } rd ((f (s.r rs1) (s.operand2 op2)).extractLsb' 0 32) := by
  obtain ⟨watch, clean, inj⟩ := hp
  rw [mulOpCc, checked_nil watch, withOperands_clean clean, putProduct, y_writeR, setIcc_writeR]
  exact completes_writeR (u := setIcc { s with y := (f (s.r rs1) (s.operand2 op2)).extractLsb' 32 32 } _) inj rd _

theorem divOp_completes (f : Word → Word → Word → Word × Bool) (nonzero : s.operand2 op2 ≠ 0) :
    Completes (divOp s rd rs1 op2 f) s rd (f s.y (s.r rs1) (s.operand2 op2)).1 := by
  obtain ⟨watch, clean, inj⟩ := hp
  rw [divOp, checked_nil watch, withOperands_clean clean, if_neg nonzero]
  exact completes_writeR inj rd _

theorem divOpCc_completes (f : Word → Word → Word → Word × Bool) (nonzero : s.operand2 op2 ≠ 0) :
    Completes (divOpCc s rd rs1 op2 f) (setIcc s (iccDiv (f s.y (s.r rs1) (s.operand2 op2)))) rd
      (f s.y (s.r rs1) (s.operand2 op2)).1 := by
  obtain ⟨watch, clean, inj⟩ := hp
  rw [divOpCc, checked_nil watch, withOperands_clean clean, if_neg nonzero, setIcc_writeR]
  exact completes_writeR (u := setIcc s _) inj rd _

theorem divOp_traps (f : Word → Word → Word → Word × Bool) (zero : s.operand2 op2 = 0) (can : CanTrap s ttDivisionByZero) :
    Traps (divOp s rd rs1 op2 f) s ttDivisionByZero := by
  obtain ⟨watch, clean, inj⟩ := hp
  rw [divOp, checked_nil watch, withOperands_clean clean, if_pos zero]
  exact traps_raise inj can

theorem divOpCc_traps (f : Word → Word → Word → Word × Bool) (zero : s.operand2 op2 = 0) (can : CanTrap s ttDivisionByZero) :
    Traps (divOpCc s rd rs1 op2 f) s ttDivisionByZero := by
  obtain ⟨watch, clean, inj⟩ := hp
  rw [divOpCc, checked_nil watch, withOperands_clean clean, if_pos zero]
  exact traps_raise inj can

end

/-! ### Logical instructions and shifts -/

/-- Settles O13. -/
theorem logicResults : Obligations.LogicResults := by
  intro s rd rs1 op2 hp
  have done := intOp_completes hp rd rs1 op2
  exact ⟨done (fun a b => a &&& b),
    done (fun a b => a &&& ~~~b),
    done (fun a b => a ||| b),
    done (fun a b => a ||| ~~~b),
    done (fun a b => a ^^^ b),
    BitVec.not_xor_right ▸ done (fun a b => a ^^^ ~~~b)⟩

theorem iccLogic_eq (v : Word) : iccLogic v = { n := v.getLsbD 31, z := decide (v = 0), v := false, c := false } := by
  simp [iccLogic, BitVec.msb_eq_getLsbD_last]

theorem logicCc_completes {s : State} (hp : Plain s) (rd rs1 : RegNum) (op2 : RegImm) (f : Word → Word → Word) :
    let v := f (s.r rs1) (s.operand2 op2)
    Completes (intOpCc s rd rs1 op2 f fun _ _ res => iccLogic res)
      { s with psr := { s.psr with n := v.getLsbD 31, z := decide (v = 0), v := false, c := false } } rd v := by
  have done := intOpCc_completes hp rd rs1 op2 f fun _ _ res => iccLogic res
  rwa [iccLogic_eq] at done

/-- Settles O14. -/
theorem logicCcResults : Obligations.LogicCcResults := by
  intro s rd rs1 op2 hp
  have done := logicCc_completes hp rd rs1 op2
  exact ⟨done (fun a b => a &&& b),
    done (fun a b => a &&& ~~~b),
    done (fun a b => a ||| b),
    done (fun a b => a ||| ~~~b),
    done (fun a b => a ^^^ b),
    BitVec.not_xor_right ▸ done (fun a b => a ^^^ ~~~b)⟩

theorem shiftLeft_eq (a : Word) (n : Nat) : a <<< n = BitVec.ofNat 32 (a.toNat * 2 ^ n) := by
  apply BitVec.eq_of_toNat_eq
  rw [BitVec.toNat_shiftLeft, BitVec.toNat_ofNat, Nat.shiftLeft_eq]

theorem ushiftRight_eq (a : Word) (n : Nat) : a >>> n = BitVec.ofNat 32 (a.toNat / 2 ^ n) := by
  apply BitVec.eq_of_toNat_eq
  rw [BitVec.toNat_ushiftRight, BitVec.toNat_ofNat, Nat.shiftRight_eq_div_pow,
    Nat.mod_eq_of_lt (lt_of_le_of_lt (Nat.div_le_self _ _) a.isLt)]

theorem sshiftRight_eq (a : Word) (n : Nat) : a.sshiftRight n = BitVec.ofInt 32 (a.toInt / 2 ^ n) := by
  rw [BitVec.sshiftRight_eq, Int.shiftRight_eq_div_pow]
  norm_cast

theorem shifts_complete {s : State} (hp : Plain s) (rd rs1 : RegNum) (cnt : ShiftArg) {n : Nat} (hn : (shiftCount s cnt).toNat = n) :
    Completes (exec (.sll rd rs1 cnt) s) s rd (BitVec.ofNat 32 ((s.r rs1).toNat * 2 ^ n)) ∧
      Completes (exec (.srl rd rs1 cnt) s) s rd (BitVec.ofNat 32 ((s.r rs1).toNat / 2 ^ n)) ∧
      Completes (exec (.sra rd rs1 cnt) s) s rd (BitVec.ofInt 32 ((s.r rs1).toInt / 2 ^ n)) := by
  subst hn
  rw [← shiftLeft_eq, ← ushiftRight_eq, ← sshiftRight_eq]
  exact ⟨shiftOp_completes hp rd rs1 cnt _, shiftOp_completes hp rd rs1 cnt _, shiftOp_completes hp rd rs1 cnt _⟩

/-- Settles O15. -/
theorem shiftResults : Obligations.ShiftResults := by
  intro s rd rs1 hp
  exact ⟨fun rs2 => shifts_complete hp rd rs1 (.reg rs2) (by simp [shiftCount]), fun k => shifts_complete hp rd rs1 (.imm k) rfl⟩

/-! ### Sums and differences -/

theorem carryWord_eq (c : Bool) : carryWord c = BitVec.ofNat 32 c.toNat := by cases c <;> rfl

/-- Settles O16. -/
theorem addSubResults : Obligations.AddSubResults := by
  intro s rd rs1 op2 hp a b c
  have hc : c = carryWord s.psr.c := (carryWord_eq _).symm
  rw [hc]
  exact ⟨intOp_completes hp rd rs1 op2 _, intOp_completes hp rd rs1 op2 _, intOp_completes hp rd rs1 op2 _,
    intOp_completes hp rd rs1 op2 _⟩

/-- The signed value of a word and its sign bit, by its unsigned value. -/
theorem toInt_and_msb (a : Word) :
    (a.msb = true ∧ a.toInt = a.toNat - 2 ^ 32 ∧ 2 ^ 31 ≤ a.toNat) ∨ (a.msb = false ∧ a.toInt = a.toNat ∧ a.toNat < 2 ^ 31) := by
  have msb : a.msb = decide (2 ^ 31 ≤ a.toNat) := BitVec.msb_eq_decide a
  have val := BitVec.toInt_eq_msb_cond a
  by_cases h : 2 ^ 31 ≤ a.toNat
  · rw [decide_eq_true h] at msb
    exact .inl ⟨msb, by simpa [msb] using val, h⟩
  · rw [decide_eq_false h] at msb
    exact .inr ⟨msb, by simpa [msb] using val, by omega⟩

/-- V of a sum: the exact signed value does not fit. -/
theorem addOverflow_iff (a b : Word) (c : Bool) :
    (a.msb = b.msb && (a + b + carryWord c).msb ≠ a.msb) = true ↔ a.toInt + b.toInt + c.toNat ≠ (a + b + carryWord c).toInt := by
  have sum : (a + b + carryWord c).toNat = (a.toNat + b.toNat + c.toNat) % 2 ^ 32 := by
    rw [carryWord_eq, BitVec.toNat_add, BitVec.toNat_add, BitVec.toNat_ofNat]
    omega
  have hc : c.toNat ≤ 1 := Bool.toNat_le c
  have ha := a.isLt
  have hb := b.isLt
  generalize a + b + carryWord c = r at sum ⊢
  rcases toInt_and_msb a with ⟨ma, ia, la⟩ | ⟨ma, ia, la⟩ <;> rcases toInt_and_msb b with ⟨mb, ib, lb⟩ | ⟨mb, ib, lb⟩ <;>
    rcases toInt_and_msb r with ⟨mr, ir, lr⟩ | ⟨mr, ir, lr⟩ <;> simp only [ma, mb, mr, ia, ib, ir, decide_true] <;> simp <;> omega

/-- V of a difference. -/
theorem subOverflow_iff (a b : Word) (c : Bool) :
    (a.msb ≠ b.msb && (a - b - carryWord c).msb = b.msb) = true ↔ a.toInt - b.toInt - c.toNat ≠ (a - b - carryWord c).toInt := by
  have hc : c.toNat ≤ 1 := Bool.toNat_le c
  have ha := a.isLt
  have hb := b.isLt
  have diff : (a - b - carryWord c).toNat = (2 ^ 33 + a.toNat - b.toNat - c.toNat) % 2 ^ 32 := by
    rw [carryWord_eq, BitVec.toNat_sub, BitVec.toNat_sub, BitVec.toNat_ofNat]
    omega
  generalize a - b - carryWord c = r at diff ⊢
  rcases toInt_and_msb a with ⟨ma, ia, la⟩ | ⟨ma, ia, la⟩ <;> rcases toInt_and_msb b with ⟨mb, ib, lb⟩ | ⟨mb, ib, lb⟩ <;>
    rcases toInt_and_msb r with ⟨mr, ir, lr⟩ | ⟨mr, ir, lr⟩ <;> simp only [ma, mb, mr, ia, ib, ir, decide_true] <;> simp <;> omega

theorem iccAdd_spec (a b : Word) (c : Bool) :
    IccOf (iccAdd a b c (a + b + carryWord c)) (a + b + carryWord c) (a.toInt + b.toInt + c.toNat) (2 ^ 32 ≤ a.toNat + b.toNat + c.toNat) :=
  ⟨rfl, by simp [iccAdd], addOverflow_iff a b c, by simp [iccAdd]⟩

theorem iccSub_spec (a b : Word) (c : Bool) :
    IccOf (iccSub a b c (a - b - carryWord c)) (a - b - carryWord c) (a.toInt - b.toInt - c.toNat) (a.toNat < b.toNat + c.toNat) :=
  ⟨rfl, by simp [iccSub], subOverflow_iff a b c, by simp [iccSub]⟩

/-- Without a carry. -/
theorem iccAdd_spec_false (a b : Word) : IccOf (iccAdd a b false (a + b)) (a + b) (a.toInt + b.toInt) (2 ^ 32 ≤ a.toNat + b.toNat) := by
  have := iccAdd_spec a b false
  simpa [carryWord] using this

theorem iccSub_spec_false (a b : Word) : IccOf (iccSub a b false (a - b)) (a - b) (a.toInt - b.toInt) (a.toNat < b.toNat) := by
  have := iccSub_spec a b false
  simpa [carryWord] using this

/-- Settles O17. -/
theorem addSubCcResults : Obligations.AddSubCcResults := by
  intro s rd rs1 op2 hp a b c
  have hc : BitVec.ofNat 32 c = carryWord s.psr.c := (carryWord_eq _).symm
  rw [hc]
  exact ⟨⟨_, iccAdd_spec_false a b, intOpCc_completes hp rd rs1 op2 _ _⟩, ⟨_, iccAdd_spec a b _, intOpCc_completes hp rd rs1 op2 _ _⟩,
    ⟨_, iccSub_spec_false a b, intOpCc_completes hp rd rs1 op2 _ _⟩, ⟨_, iccSub_spec a b _, intOpCc_completes hp rd rs1 op2 _ _⟩⟩

/-! ### Tagged sums and differences -/

theorem tagged_iff (a b : Word) : tagged a b = true ↔ a.toNat % 4 ≠ 0 ∨ b.toNat % 4 ≠ 0 := by
  simp [tagged, ← BitVec.toNat_inj]

theorem taggedTrapOp_completes {s : State} (hp : Plain s) (rd rs1 : RegNum) (op2 : RegImm) {f : Word → Word → Word}
    {ev : Word → Word → Word → Bool} {x : Word → Word → Word → Icc}
    (none : ev (s.r rs1) (s.operand2 op2) (f (s.r rs1) (s.operand2 op2)) = false) :
    Completes (taggedTrapOp s rd rs1 op2 f ev x)
      (setIcc s (x (s.r rs1) (s.operand2 op2) (f (s.r rs1) (s.operand2 op2)))) rd (f (s.r rs1) (s.operand2 op2)) := by
  obtain ⟨watch, clean, inj⟩ := hp
  rw [taggedTrapOp, checked_nil watch, withOperands_clean clean, none, if_neg Bool.false_ne_true, setIcc_writeR]
  exact completes_writeR (u := setIcc s _) inj rd _

theorem taggedTrapOp_traps {s : State} (hp : Plain s) (rd rs1 : RegNum) (op2 : RegImm) {f : Word → Word → Word}
    {ev : Word → Word → Word → Bool} {x : Word → Word → Word → Icc}
    (event : ev (s.r rs1) (s.operand2 op2) (f (s.r rs1) (s.operand2 op2)) = true) (can : CanTrap s ttTagOverflow) :
    Traps (taggedTrapOp s rd rs1 op2 f ev x) s ttTagOverflow := by
  obtain ⟨watch, clean, inj⟩ := hp
  rw [taggedTrapOp, checked_nil watch, withOperands_clean clean, event, if_pos rfl]
  exact traps_raise inj can

theorem tagevAdd_iff (a b : Word) :
    tagevAdd a b (a + b) = true ↔ a.toNat % 4 ≠ 0 ∨ b.toNat % 4 ≠ 0 ∨ a.toInt + b.toInt ≠ (a + b).toInt := by
  have v := (iccAdd_spec_false a b).2.2.1
  rw [tagevAdd, Bool.or_eq_true, tagged_iff, or_assoc]
  exact or_congr_right (or_congr_right v)

theorem tagevSub_iff (a b : Word) :
    tagevSub a b (a - b) = true ↔ a.toNat % 4 ≠ 0 ∨ b.toNat % 4 ≠ 0 ∨ a.toInt - b.toInt ≠ (a - b).toInt := by
  have v := (iccSub_spec_false a b).2.2.1
  rw [tagevSub, Bool.or_eq_true, tagged_iff, or_assoc]
  exact or_congr_right (or_congr_right v)

/-- Without the event V is clear, as the trapping form has it. -/
theorem iccAdd_of_no_tagev {a b : Word} (h : tagevAdd a b (a + b) = false) :
    iccAdd a b false (a + b) = { iccAdd a b false (a + b) with v := tagevAdd a b (a + b) } := by
  have v : (iccAdd a b false (a + b)).v = false := (Bool.or_eq_false_iff.1 h).2
  rw [h]
  exact congrArg (fun x => ({ iccAdd a b false (a + b) with v := x } : Icc)) v

theorem iccSub_of_no_tagev {a b : Word} (h : tagevSub a b (a - b) = false) :
    iccSub a b false (a - b) = { iccSub a b false (a - b) with v := tagevSub a b (a - b) } := by
  have v : (iccSub a b false (a - b)).v = false := (Bool.or_eq_false_iff.1 h).2
  rw [h]
  exact congrArg (fun x => ({ iccSub a b false (a - b) with v := x } : Icc)) v

/-- Settles O18. -/
theorem taggedResults : Obligations.TaggedResults := by
  intro s rd rs1 op2 hp a b
  constructor
  · have icc := iccAdd_spec_false a b
    refine ⟨{ iccAdd a b false (a + b) with v := tagevAdd a b (a + b) }, icc.1, icc.2.1, tagevAdd_iff a b, icc.2.2.2, ?_,
      fun none => ?_, fun event can => ?_⟩
    · exact intOpCc_completes hp rd rs1 op2 (fun a b => a + b) fun a b res => { iccAdd a b false res with v := tagevAdd a b res }
    · have none := eq_false_of_ne_true (mt (tagevAdd_iff a b).1 none)
      rw [← iccAdd_of_no_tagev none]
      exact taggedTrapOp_completes hp rd rs1 op2 (f := fun a b => a + b) (x := fun a b res => iccAdd a b false res) none
    · exact taggedTrapOp_traps hp rd rs1 op2 (f := fun a b => a + b) ((tagevAdd_iff a b).2 event) can
  · have icc := iccSub_spec_false a b
    refine ⟨{ iccSub a b false (a - b) with v := tagevSub a b (a - b) }, icc.1, icc.2.1, tagevSub_iff a b, icc.2.2.2, ?_,
      fun none => ?_, fun event can => ?_⟩
    · exact intOpCc_completes hp rd rs1 op2 (fun a b => a - b) fun a b res => { iccSub a b false res with v := tagevSub a b res }
    · have none := eq_false_of_ne_true (mt (tagevSub_iff a b).1 none)
      rw [← iccSub_of_no_tagev none]
      exact taggedTrapOp_completes hp rd rs1 op2 (f := fun a b => a - b) (x := fun a b res => iccSub a b false res) none
    · exact taggedTrapOp_traps hp rd rs1 op2 (f := fun a b => a - b) ((tagevSub_iff a b).2 event) can

/-! ### Multiply and divide -/

theorem toNat_append_words (y a : Word) : (y ++ a : BitVec 64).toNat = y.toNat * 2 ^ 32 + a.toNat := by
  have h : (y ++ a : BitVec (32 + 32)).toNat = y.toNat <<< 32 ||| a.toNat := BitVec.toNat_append y a
  rw [Nat.shiftLeft_eq, Nat.mul_comm, ← Nat.two_pow_add_eq_or_of_lt a.isLt, Nat.mul_comm] at h
  exact h

theorem toInt_append_words (y a : Word) : (y ++ a : BitVec 64).toInt = y.toInt * 2 ^ 32 + a.toNat := by
  have h := toNat_append_words y a
  have ha := a.isLt
  rw [BitVec.toInt_eq_toNat_cond, BitVec.toInt_eq_toNat_cond, h]
  split <;> split <;> omega

theorem append_halves (p : BitVec 64) : (p.extractLsb' 32 32 ++ p.extractLsb' 0 32 : BitVec 64) = p :=
  BitVec.extractLsb'_append_extractLsb'_eq_extractLsb' (by rfl) |>.trans (BitVec.extractLsb'_eq_self)

theorem toNat_umulProduct (a b : Word) : (umulProduct a b).toNat = a.toNat * b.toNat := by
  have bound : a.toNat * b.toNat < 2 ^ 32 * 2 ^ 32 := Nat.mul_lt_mul'' a.isLt b.isLt
  have ha := a.isLt
  have hb := b.isLt
  rw [umulProduct, BitVec.toNat_mul, BitVec.toNat_setWidth, BitVec.toNat_setWidth,
    Nat.mod_eq_of_lt (show a.toNat < 2 ^ 64 by omega), Nat.mod_eq_of_lt (show b.toNat < 2 ^ 64 by omega), Nat.mod_eq_of_lt (by omega)]

theorem toInt_smulProduct (a b : Word) : (smulProduct a b).toInt = a.toInt * b.toInt := by
  have ha := BitVec.toInt_signExtend_of_le (x := a) (v := 64) (by omega)
  have hb := BitVec.toInt_signExtend_of_le (x := b) (v := 64) (by omega)
  have bound (x : Word) : |x.toInt| ≤ 2 ^ 31 := abs_le.2 ⟨BitVec.le_toInt x, (BitVec.toInt_lt (x := x)).le⟩
  have product : |a.toInt * b.toInt| ≤ 2 ^ 31 * 2 ^ 31 := by
    rw [abs_mul]
    exact mul_le_mul (bound a) (bound b) (abs_nonneg _) (by norm_num)
  obtain ⟨low, high⟩ := abs_le.1 product
  rw [smulProduct, BitVec.toInt_mul, ha, hb]
  exact Int.bmod_eq_of_le (by omega) (by omega)

/-- Settles O20. -/
theorem multiplyResults : Obligations.MultiplyResults := by
  intro s rd rs1 op2 hp a b cc
  have icc (lo : Word) : cc lo = iccLogic lo := (iccLogic_eq lo).symm
  simp only [icc]
  refine ⟨⟨(umulProduct a b).extractLsb' 32 32, (umulProduct a b).extractLsb' 0 32, ?_, mulOp_completes hp rd rs1 op2 umulProduct,
    mulOpCc_completes hp rd rs1 op2 umulProduct⟩, (smulProduct a b).extractLsb' 32 32, (smulProduct a b).extractLsb' 0 32, ?_,
    mulOp_completes hp rd rs1 op2 smulProduct, mulOpCc_completes hp rd rs1 op2 smulProduct⟩
  · rw [← toNat_append_words, append_halves, toNat_umulProduct]
  · rw [← toInt_append_words, append_halves, toInt_smulProduct]

theorem udivResult_spec (y a b : Word) :
    let q := (y.toNat * 2 ^ 32 + a.toNat) / b.toNat
    (udivResult y a b).1.toNat = min q (2 ^ 32 - 1) ∧ (udivResult y a b).2 = decide (2 ^ 32 - 1 < q) := by
  intro q
  have result : udivResult y a b = if 2 ^ 32 ≤ q then (0xFFFFFFFF#32, true) else (BitVec.ofNat 32 q, false) := by
    rw [udivResult, toNat_append_words]
  rw [result]
  split
  · exact ⟨(min_eq_right (by omega)).symm, (decide_eq_true (by omega)).symm⟩
  · refine ⟨?_, (decide_eq_false (by omega)).symm⟩
    rw [BitVec.toNat_ofNat, min_eq_left (by omega), Nat.mod_eq_of_lt (by omega)]

theorem sdivResult_spec (y a b : Word) :
    let q : Int := (y.toInt * 2 ^ 32 + a.toNat).tdiv b.toInt
    (sdivResult y a b).1.toInt = max (-(2 ^ 31)) (min q (2 ^ 31 - 1)) ∧
      (sdivResult y a b).2 = decide (2 ^ 31 - 1 < q ∨ q < -(2 ^ 31)) := by
  intro q
  have result : sdivResult y a b = if 2 ^ 31 ≤ q then (0x7FFFFFFF#32, true) else if q < -(2 ^ 31) then (0x80000000#32, true)
      else (BitVec.ofInt 32 q, false) := by
    rw [sdivResult, toInt_append_words]
  rw [result]
  split
  · refine ⟨?_, (decide_eq_true (by omega)).symm⟩
    have : (0x7FFFFFFF#32).toInt = 2 ^ 31 - 1 := by decide
    change (0x7FFFFFFF#32).toInt = _
    omega
  split
  · refine ⟨?_, (decide_eq_true (by omega)).symm⟩
    have : (0x80000000#32).toInt = -(2 ^ 31) := by decide
    change (0x80000000#32).toInt = _
    omega
  · refine ⟨?_, (decide_eq_false (by omega)).symm⟩
    rw [BitVec.toInt_ofInt, Int.bmod_eq_of_le (by omega) (by omega)]
    omega

theorem iccDiv_eq (r : Word × Bool) : iccDiv r = { n := r.1.getLsbD 31, z := decide (r.1 = 0), v := r.2, c := false } := by
  simp [iccDiv, BitVec.msb_eq_getLsbD_last]

/-- Settles O21. -/
theorem divideResults : Obligations.DivideResults := by
  intro s rd rs1 op2 hp a b q qs cc
  refine ⟨fun nonzero => ⟨?_, ?_⟩, fun zero can => ?_⟩
  · obtain ⟨value, overflow⟩ := udivResult_spec s.y a b
    refine ⟨(udivResult s.y a b).1, value, divOp_completes hp rd rs1 op2 udivResult nonzero, ?_⟩
    rw [← overflow]
    have done := divOpCc_completes hp rd rs1 op2 udivResult nonzero
    rwa [iccDiv_eq] at done
  · obtain ⟨value, overflow⟩ := sdivResult_spec s.y a b
    refine ⟨(sdivResult s.y a b).1, value, divOp_completes hp rd rs1 op2 sdivResult nonzero, ?_⟩
    rw [← overflow]
    have done := divOpCc_completes hp rd rs1 op2 sdivResult nonzero
    rwa [iccDiv_eq] at done
  · exact ⟨divOp_traps hp rd rs1 op2 udivResult zero can, divOp_traps hp rd rs1 op2 sdivResult zero can,
      divOpCc_traps hp rd rs1 op2 udivResult zero can, divOpCc_traps hp rd rs1 op2 sdivResult zero can⟩

theorem mulsccOp1_eq (p : Psr) (a : Word) : mulsccOp1 p a = (a >>> 1) + (if p.n ≠ p.v then 0x80000000#32 else 0) := by
  have join (x : Bool) : (b1 x ++ a.extractLsb' 1 31 : Word).toNat = x.toNat * 2 ^ 31 + a.toNat / 2 := by
    have low : (a.extractLsb' 1 31).toNat = a.toNat / 2 := by
      have := a.isLt
      rw [BitVec.extractLsb'_toNat, Nat.shiftRight_eq_div_pow]
      omega
    have h : (b1 x ++ a.extractLsb' 1 31 : BitVec (1 + 31)).toNat = _ := BitVec.toNat_append _ _
    rw [Nat.shiftLeft_eq, Nat.mul_comm, ← Nat.two_pow_add_eq_or_of_lt (a.extractLsb' 1 31).isLt, low] at h
    rw [show (b1 x).toNat = x.toNat by cases x <;> rfl, Nat.mul_comm] at h
    exact h
  apply BitVec.eq_of_toNat_eq
  have ha := a.isLt
  rw [mulsccOp1, join, BitVec.toNat_add, BitVec.toNat_ushiftRight, Nat.shiftRight_eq_div_pow]
  cases p.n <;> cases p.v <;> simp <;> omega

theorem mulscc_y (a y : Word) : (a.extractLsb' 0 1 ++ y.extractLsb' 1 31 : Word) = (y >>> 1) ||| (a <<< 31) := by
  have split : (a.extractLsb' 0 1 ++ y.extractLsb' 1 31 : BitVec (1 + 31)) = (y >>> 1) ||| (a <<< 31) := by
    ext i hi
    rw [BitVec.getElem_append]
    by_cases h : i < 31
    · simp [h, show 1 + i < 32 by omega]
    · obtain rfl : i = 31 := by omega
      simp
  exact split

/-- Settles O19. -/
theorem mulsccResult : Obligations.MulsccResult := by
  intro s rd rs1 op2 hp a o1 o2
  obtain ⟨watch, clean, inj⟩ := hp
  refine ⟨iccAdd o1 o2 false (o1 + o2), iccAdd_spec_false o1 o2, ?_⟩
  have operand : (if bit s.y 0 then s.operand2 op2 else 0) = o2 := by
    have low : bit s.y 0 = decide (s.y.toNat % 2 = 1) := by
      rw [bit, BitVec.getLsbD, Nat.testBit_zero]
    simp only [low, decide_eq_true_eq]
    rfl
  change Completes (checked s [] (withOperands s rs1 op2 _)) _ _ _
  rw [checked_nil watch, withOperands_clean clean]
  simp only [operand, mulsccOp1_eq, mulscc_y, setIcc_writeR, y_writeR]
  exact completes_writeR (u := { setIcc s (iccAdd o1 o2 false (o1 + o2)) with y := _ }) inj rd _

/-! ### SETHI and NOP -/

theorem sethi_value (i : BitVec 22) : (i ++ 0#10 : Word) = BitVec.ofNat 32 (i.toNat * 1024) := by
  apply BitVec.eq_of_toNat_eq
  have h : (i ++ 0#10 : BitVec (22 + 10)).toNat = _ := BitVec.toNat_append i 0#10
  have hi := i.isLt
  simp only [Nat.shiftLeft_eq, BitVec.toNat_ofNat, Nat.zero_mod, Nat.or_zero] at h
  rw [BitVec.toNat_ofNat, Nat.mod_eq_of_lt (by omega)]
  exact h

/-- Settles O22. -/
theorem sethiNopResults : Obligations.SethiNopResults := by
  intro s watch inj
  refine ⟨fun rd imm22 => ?_, ?_⟩
  · change Completes (checked s [] (.next (advance (writeR s rd (imm22 ++ 0#10))))) _ _ _
    rw [checked_nil watch, sethi_value]
    exact completes_writeR inj rd _
  · change Completes (checked s [] (.next (advance s))) _ _ _
    rw [checked_nil watch]
    exact completes_advance s

end Sys2Proof.Proofs

/-! PROOFS. Control transfer: branches, CALL, JMPL, RETT, software traps. -/

namespace Sys2Proof.Proofs

open Sys2Proof Sys2Proof.Machine

/-! ### Branches -/

theorem branchTarget_eq (s : State) (d : BitVec 22) : branchTarget s.pc d = s.branchTo d := by
  have four : d.signExtend 32 <<< 2 = 4 * d.signExtend 32 := by
    apply BitVec.eq_of_toNat_eq
    rw [BitVec.toNat_shiftLeft, BitVec.toNat_mul, Nat.shiftLeft_eq, Nat.mul_comm]
    rfl
  rw [branchTarget, State.branchTo, four]

/-- The four lines of the delayed-transfer rule. -/
theorem branch_spec {s : State} (ready : s.annul = false) (always taken a : Bool) (d : BitVec 22) :
    Branches (.next (branch s always taken a d)) s always taken a (s.branchTo d) := by
  refine ⟨_, rfl, ?_, ?_⟩
  · cases taken <;> cases a <;> cases always <;> simp [branch, ready, annulNext]
  · rw [← branchTarget_eq]
    cases taken <;> cases a <;> cases always <;>
      simp [branch, ready, annulNext, skipAnnulled, jump, advance, BitVec.add_assoc]

theorem branchIcc_spec {s : State} (watch : watchFetch s s.pc = false) (ready : s.annul = false) {c : Cond} {always taken : Bool}
    (ha : decide (c = .always) = always) (ht : condTrue s.psr c = taken) (a : Bool) (d : BitVec 22) :
    Branches (branchIcc s c a d) s always taken a (s.branchTo d) := by
  subst ha ht
  rw [branchIcc, checked_nil watch]
  exact branch_spec ready _ _ a d

theorem not_xor_eq_beq (x y : Bool) : (!(x ^^ y)) = (x == y) := by cases x <;> cases y <;> rfl

/-- Settles O23. -/
theorem branchIccOutcomes : Obligations.BranchIccOutcomes := by
  intro s a d watch ready n z v c goes
  have go {c : Cond} {always taken : Bool} (ha : decide (c = .always) = always) (ht : condTrue s.psr c = taken) :
      Branches (branchIcc s c a d) s always taken a (s.branchTo d) := branchIcc_spec watch ready ha ht a d
  exact ⟨go (c := .always) rfl rfl, go (c := .never) rfl rfl, go (c := .ne) rfl rfl, go (c := .e) rfl rfl, go (c := .g) rfl rfl,
    go (c := .le) rfl rfl, go (c := .ge) rfl (not_xor_eq_beq _ _), go (c := .l) rfl rfl, go (c := .gu) rfl rfl, go (c := .leu) rfl rfl,
    go (c := .cc) rfl rfl, go (c := .cs) rfl rfl, go (c := .pos) rfl rfl, go (c := .neg) rfl rfl, go (c := .vc) rfl rfl,
    go (c := .vs) rfl rfl⟩

theorem branchFcc_spec {s : State} (watch : watchFetch s s.pc = false) (ready : s.annul = false) (ef : s.psr.ef = true) (always : Bool)
    (c : FCond) {l : List (BitVec 2)} (hl : ∀ f, fcondTrue f c = decide (f ∈ l)) (a : Bool) (d : BitVec 22) :
    Branches (branchFcc s always c a d) s always (decide (s.fsr.fcc ∈ l)) a (s.branchTo d) := by
  rw [branchFcc, ef, Bool.not_true, checked_skip, checked_nil watch, hl]
  exact branch_spec ready _ _ a d

/-- Settles O24. -/
theorem branchFccOutcomes : Obligations.BranchFccOutcomes := by
  intro s a d watch ready ef f goes
  have go (always : Bool) (c : FCond) {l : List (BitVec 2)} (hl : ∀ f, fcondTrue f c = decide (f ∈ l)) :
      Branches (branchFcc s always c a d) s always (decide (f ∈ l)) a (s.branchTo d) := branchFcc_spec watch ready ef always c hl a d
  exact ⟨go true ⟨true, true, true, true⟩ (by decide), go false ⟨false, false, false, false⟩ (by decide),
    go false ⟨false, false, false, true⟩ (by decide), go false ⟨false, false, true, false⟩ (by decide),
    go false ⟨false, false, true, true⟩ (by decide), go false ⟨false, true, false, false⟩ (by decide),
    go false ⟨false, true, false, true⟩ (by decide), go false ⟨false, true, true, false⟩ (by decide),
    go false ⟨false, true, true, true⟩ (by decide), go false ⟨true, false, false, false⟩ (by decide),
    go false ⟨true, false, false, true⟩ (by decide), go false ⟨true, false, true, false⟩ (by decide),
    go false ⟨true, false, true, true⟩ (by decide), go false ⟨true, true, false, false⟩ (by decide),
    go false ⟨true, true, false, true⟩ (by decide), go false ⟨true, true, true, false⟩ (by decide)⟩

/-! ### CALL, JMPL, RETT -/

theorem aligned_two_pow_iff (a : Word) {k : Nat} (hk : k < 32) : aligned a (2 ^ k) = true ↔ a.toNat % 2 ^ k = 0 := by
  have small : 2 ^ k - 1 < 2 ^ 32 := by
    have := Nat.pow_lt_pow_right (a := 2) (by omega) hk
    omega
  rw [aligned, decide_eq_true_eq, ← BitVec.toNat_inj, BitVec.toNat_and, BitVec.toNat_ofNat, Nat.mod_eq_of_lt small,
    Nat.and_two_pow_sub_one_eq_mod]
  rfl

theorem aligned_four_iff (a : Word) : aligned a 4 = true ↔ a.toNat % 4 = 0 := aligned_two_pow_iff a (k := 2) (by omega)

theorem callTarget_eq (pc : Word) (d : BitVec 30) : callTarget pc d = pc + 4 * d.setWidth 32 := by
  have four : d.setWidth 32 <<< 2 = 4 * d.setWidth 32 := by
    apply BitVec.eq_of_toNat_eq
    rw [BitVec.toNat_shiftLeft, BitVec.toNat_mul, Nat.shiftLeft_eq, Nat.mul_comm]
    rfl
  rw [callTarget, four]

/-- An instruction that ends by writing `r[rd]` and a delayed transfer completes so. -/
theorem completesTo_jump {u : State} (h : NoInjection u) (rd : RegNum) (v target : Word) :
    CompletesTo (.next (jump (writeR u rd v) target)) u rd v target := by
  obtain ⟨h1, h2, h3, h4⟩ := writeR_spec h rd v
  refine ⟨_, rfl, ⟨fun hrd => ?_, fun n hn => ?_, ?_, fun i hi => ?_⟩, ?_, fun a => ?_⟩
  · exact h1 hrd
  · exact h2 n hn
  · exact h3
  · exact h4 i hi
  · unfold writeR
    split <;> rfl
  · exact byteAt_congr (by simp) a

/-- Settles O26. -/
theorem callJmplResults : Obligations.CallJmplResults := by
  intro s hp
  obtain ⟨watch, clean, inj⟩ := hp
  refine ⟨fun d => ?_, fun rd rs1 op2 => ⟨fun al => ?_, fun al can => ?_⟩⟩
  · change CompletesTo (checked s [] (.next (jump (writeR s 15 s.pc) (callTarget s.pc d)))) _ _ _ _
    rw [checked_nil watch, callTarget_eq]
    exact completesTo_jump inj 15 _ _
  · change CompletesTo (execJmpl rd rs1 op2 s) _ _ _ _
    rw [execJmpl, checked_nil watch, withAddress_clean clean, (aligned_four_iff _).2 al, if_neg (by simp)]
    exact completesTo_jump inj rd _ _
  · change Traps (execJmpl rd rs1 op2 s) _ _
    rw [execJmpl, checked_nil watch, withAddress_clean clean, eq_false_of_ne_true (mt (aligned_four_iff _).1 al), if_pos (by simp)]
    exact traps_raise inj can

theorem rettError_stops {s : State} {tt : BitVec 8} (h : debugOnTrap s tt = false) :
    rettError s tt = .next { s with trapped := true, errorMode := true, tt := tt } := by
  simp [rettError, h]

/-- Settles O27, check by check in the order of the rule. -/
theorem rettResults : Obligations.RettResults := by
  intro s rs1 op2 hp target up stops
  obtain ⟨watch, clean, inj⟩ := hp
  have body (et : s.psr.et = false) (sup : s.psr.s = true) : exec (.rett rs1 op2) s =
      if windowInvalid s up then rettError s ttWindowUnderflow
      else if !aligned target 4 then rettError s ttNotAligned else .next (jump { s with psr := s.psr.returned } target) := by
    change execRett rs1 op2 s = _
    rw [execRett, et, sup, if_neg (by simp), checked_pass watch _ (by simp), withAddress_clean clean]
  refine ⟨fun et sup valid al => ?_, fun et user can => ?_, fun et sup can => ?_, fun et user noDebug => ?_,
    fun et sup invalid noDebug => ?_, fun et sup valid al noDebug => ?_⟩
  · rw [body et sup, windowInvalid, valid, if_neg Bool.false_ne_true, (aligned_four_iff _).2 al, if_neg (by simp)]
    rfl
  · change Traps (execRett rs1 op2 s) _ _
    rw [execRett, et, user, if_neg (by simp)]
    exact traps_raise inj can
  · change Traps (execRett rs1 op2 s) _ _
    rw [execRett, et, sup, if_neg (by simp), Bool.not_true, Bool.and_false, checked_skip, checked_trap]
    exact traps_raise inj can
  · change execRett rs1 op2 s = _
    rw [execRett, et, user, if_pos (by simp)]
    exact rettError_stops noDebug
  · rw [body et sup, windowInvalid, invalid, if_pos rfl]
    exact rettError_stops noDebug
  · rw [body et sup, windowInvalid, valid, if_neg Bool.false_ne_true, eq_false_of_ne_true (mt (aligned_four_iff _).1 al),
      if_pos (by simp)]
    exact rettError_stops noDebug

/-! ### Software traps -/

theorem softwareTrap_tt (x : Word) : (1#1 ++ x.extractLsb' 0 7 : BitVec 8) = BitVec.ofNat 8 (128 + x.toNat % 128) := by
  apply BitVec.eq_of_toNat_eq
  have low : (x.extractLsb' 0 7).toNat = x.toNat % 128 := by simp [BitVec.extractLsb'_toNat]
  have h : (1#1 ++ x.extractLsb' 0 7 : BitVec (1 + 7)).toNat = _ := BitVec.toNat_append 1#1 (x.extractLsb' 0 7)
  rw [Nat.shiftLeft_eq, Nat.mul_comm, ← Nat.two_pow_add_eq_or_of_lt (x.extractLsb' 0 7).isLt, low] at h
  rw [BitVec.toNat_ofNat, Nat.mod_eq_of_lt (by omega)]
  exact h

theorem withTrapNumber_clean {s : State} (clean : RegsClean s) (rs1 : RegNum) (arg : TrapArg) (k : State → BitVec 7 → Result) :
    withTrapNumber s rs1 arg k = k s ((s.r rs1 + s.trapOperand arg).extractLsb' 0 7) := by
  rw [withTrapNumber, withR_clean clean]
  cases arg with
  | reg rs2 => exact withR_clean clean _ _
  | imm n => rfl

theorem trapOn_spec {s : State} (hp : Plain s) (rs1 : RegNum) (arg : TrapArg) {c : Cond} {cond : Bool} (hc : condTrue s.psr c = cond) :
    TrapsIf (trapOn s c rs1 arg) s cond rs1 arg := by
  obtain ⟨watch, clean, inj⟩ := hp
  rw [trapOn, checked_nil watch, hc, withTrapNumber_clean clean, softwareTrap_tt]
  unfold TrapsIf
  cases cond with
  | true => exact fun can => traps_raise inj can
  | false => exact completes_advance s

/-- Settles O28. -/
theorem ticcOutcomes : Obligations.TiccOutcomes := by
  intro s rs1 arg hp n z v c goes
  have go {c : Cond} {cond : Bool} (hc : condTrue s.psr c = cond) : TrapsIf (trapOn s c rs1 arg) s cond rs1 arg :=
    trapOn_spec hp rs1 arg hc
  exact ⟨go (c := .always) rfl, go (c := .never) rfl, go (c := .ne) rfl, go (c := .e) rfl, go (c := .g) rfl, go (c := .le) rfl,
    go (c := .ge) (not_xor_eq_beq _ _), go (c := .l) rfl, go (c := .gu) rfl, go (c := .leu) rfl, go (c := .cc) rfl, go (c := .cs) rfl,
    go (c := .pos) rfl, go (c := .neg) rfl, go (c := .vc) rfl, go (c := .vs) rfl⟩

end Sys2Proof.Proofs

/-! PROOFS. The state registers, privileged and illegal instructions, UNIMP, the coprocessor instructions, STBAR and FLUSH. -/

namespace Sys2Proof.Proofs

open Sys2Proof Sys2Proof.Machine

/-! ### Words made of fields -/

theorem toNat_append_add {m n : Nat} (x : BitVec m) (y : BitVec n) : (x ++ y).toNat = x.toNat * 2 ^ n + y.toNat := by
  rw [BitVec.toNat_append, Nat.shiftLeft_eq, Nat.mul_comm, ← Nat.two_pow_add_eq_or_of_lt y.isLt]

theorem getLsbD_of_toNat {w : Word} {k : Nat} {b : Bool} (h : w.toNat / 2 ^ k % 2 = b.toNat) : w.getLsbD k = b := by
  rw [BitVec.getLsbD, Nat.testBit_eq_decide_div_mod_eq, h]
  cases b <;> rfl

theorem extractLsb'_of_toNat {w : Word} {k l : Nat} {x : BitVec l} (h : w.toNat / 2 ^ k % 2 ^ l = x.toNat) : w.extractLsb' k l = x := by
  apply BitVec.eq_of_toNat_eq
  rw [BitVec.extractLsb'_toNat, Nat.shiftRight_eq_div_pow, h]

theorem toNat_b1 (b : Bool) : (b1 b).toNat = b.toNat := by cases b <;> rfl

theorem psrWord_toNat (p : Psr) :
    (psrWord p).toNat =
      0xB3 * 2 ^ 24 + p.n.toNat * 2 ^ 23 + p.z.toNat * 2 ^ 22 + p.v.toNat * 2 ^ 21 + p.c.toNat * 2 ^ 20 + p.res.toNat * 2 ^ 14 +
        p.ef.toNat * 2 ^ 12 + p.pil.toNat * 2 ^ 8 + p.s.toNat * 2 ^ 7 + p.ps.toNat * 2 ^ 6 + p.et.toNat * 2 ^ 5 + p.cwp.toNat := by
  apply Eq.trans (b := (0xB3#8 ++ b1 p.n ++ b1 p.z ++ b1 p.v ++ b1 p.c ++ p.res ++ 0#1 ++ b1 p.ef ++ p.pil ++ b1 p.s ++ b1 p.ps ++
    b1 p.et ++ 0#2 ++ p.cwp).toNat) rfl
  simp only [toNat_append_add, toNat_b1, BitVec.toNat_ofNat]
  omega

theorem tbrWord_eq (tba : BitVec 20) (tt : BitVec 8) : tbrWord tba tt = BitVec.ofNat 32 (tba.toNat * 4096 + tt.toNat * 16) := by
  have fields : (tba ++ tt ++ 0#4).toNat = tba.toNat * 4096 + tt.toNat * 16 := by
    simp only [toNat_append_add, BitVec.toNat_ofNat]
    omega
  apply BitVec.eq_of_toNat_eq
  have h1 := tba.isLt
  have h2 := tt.isLt
  rw [BitVec.toNat_ofNat, Nat.mod_eq_of_lt (by omega)]
  exact fields

/-! ### Reading the state registers -/

theorem readPrivileged_completes {s : State} (watch : watchFetch s s.pc = false) (inj : NoInjection s) (sup : s.psr.s = true) (rd : RegNum)
    (v : Word) : Completes (readPrivileged s rd v) s rd v := by
  rw [readPrivileged, sup, Bool.not_true, checked_skip, checked_nil watch]
  exact completes_writeR inj rd v

theorem asrChecks_pass {s : State} {n : RegNum} (sup : s.psr.s = true) (impl : asrImplemented n = true) :
    ∀ p ∈ asrChecks s n, p.1 = false := by
  simp [asrChecks, sup, impl]

theorem rdasr_completes {s : State} (watch : watchFetch s s.pc = false) (inj : NoInjection s) (sup : s.psr.s = true) (rd : RegNum)
    {n : RegNum} (impl : asrImplemented n = true) : Completes (exec (.rdasr rd n) s) s rd (asrRead s n) := by
  change Completes (checked s (asrChecks s n) _) _ _ _
  rw [checked_pass watch _ (asrChecks_pass sup impl)]
  exact completes_writeR inj rd _

theorem psrWord_fields (p : Psr) :
    (psrWord p).extractLsb' 24 8 = 0xB3#8 ∧ (psrWord p).getLsbD 23 = p.n ∧ (psrWord p).getLsbD 22 = p.z ∧
      (psrWord p).getLsbD 21 = p.v ∧ (psrWord p).getLsbD 20 = p.c ∧ (psrWord p).extractLsb' 14 6 = p.res ∧
      (psrWord p).getLsbD 13 = false ∧ (psrWord p).getLsbD 12 = p.ef ∧ (psrWord p).extractLsb' 8 4 = p.pil ∧
      (psrWord p).getLsbD 7 = p.s ∧ (psrWord p).getLsbD 6 = p.ps ∧ (psrWord p).getLsbD 5 = p.et ∧
      (psrWord p).extractLsb' 0 5 = p.cwp.setWidth 5 := by
  have word := psrWord_toNat p
  have n := p.n.toNat_le
  have z := p.z.toNat_le
  have v := p.v.toNat_le
  have c := p.c.toNat_le
  have res := p.res.isLt
  have ef := p.ef.toNat_le
  have pil := p.pil.isLt
  have sup := p.s.toNat_le
  have ps := p.ps.toNat_le
  have et := p.et.toNat_le
  have cwp := p.cwp.isLt
  have cwp5 : (p.cwp.setWidth 5).toNat = p.cwp.toNat := by
    rw [BitVec.toNat_setWidth, Nat.mod_eq_of_lt (by omega)]
  have impl : (0xB3#8).toNat = 0xB3 := rfl
  have zero : false.toNat = 0 := rfl
  refine ⟨extractLsb'_of_toNat ?_, getLsbD_of_toNat ?_, getLsbD_of_toNat ?_, getLsbD_of_toNat ?_, getLsbD_of_toNat ?_,
    extractLsb'_of_toNat ?_, getLsbD_of_toNat ?_, getLsbD_of_toNat ?_, extractLsb'_of_toNat ?_, getLsbD_of_toNat ?_,
    getLsbD_of_toNat ?_, getLsbD_of_toNat ?_, extractLsb'_of_toNat ?_⟩
  all_goals omega

/-- The even and the odd ASR of watchpoint `k`. -/
theorem asr_even (k : Fin 4) :
    let n : RegNum := BitVec.ofNat 5 (24 + 2 * k.val)
    asrImplemented n = true ∧ n ≠ 16 ∧ n ≠ 17 ∧ n ≠ 18 ∧ n.getLsbD 0 = false ∧ wpIndex n = k := by
  revert k
  decide

theorem asr_odd (k : Fin 4) :
    let n : RegNum := BitVec.ofNat 5 (25 + 2 * k.val)
    asrImplemented n = true ∧ n ≠ 16 ∧ n ≠ 17 ∧ n ≠ 18 ∧ n.getLsbD 0 = true ∧ wpIndex n = k := by
  revert k
  decide

theorem asrRead_even (s : State) (k : Fin 4) : asrRead s (BitVec.ofNat 5 (24 + 2 * k.val)) = wpAddrWord (s.wp.get k) := by
  obtain ⟨-, h16, h17, h18, low, index⟩ := asr_even k
  rw [asrRead, if_neg h16, if_neg h17, if_neg h18, low, if_neg Bool.false_ne_true, index]

theorem asrRead_odd (s : State) (k : Fin 4) : asrRead s (BitVec.ofNat 5 (25 + 2 * k.val)) = wpMaskWord (s.wp.get k) := by
  obtain ⟨-, h16, h17, h18, low, index⟩ := asr_odd k
  rw [asrRead, if_neg h16, if_neg h17, if_neg h18, low, if_pos rfl, index]

/-- Settles O29. -/
theorem readStateRegisters : Obligations.ReadStateRegisters := by
  intro s rd watch inj
  refine ⟨?_, fun sup => ?_⟩
  · change Completes (checked s [] (.next (advance (writeR s rd s.y)))) _ _ _
    rw [checked_nil watch]
    exact completes_writeR inj rd _
  have read (v : Word) := readPrivileged_completes watch inj sup rd v
  have asr {n : RegNum} (impl : asrImplemented n = true) := rdasr_completes watch inj sup rd impl
  refine ⟨⟨psrWord s.psr, read _, ?_⟩, ?_, ?_, asr (n := 16) rfl, asr (n := 17) rfl, asr (n := 18) rfl, fun k => ⟨?_, ?_⟩⟩
  · have fields := psrWord_fields s.psr
    rwa [sup] at fields
  · rw [BitVec.ofNat_toNat]
    exact read _
  · rw [← tbrWord_eq]
    exact read _
  · have done := asr (asr_even k).1
    rwa [asrRead_even] at done
  · have done := asr (asr_odd k).1
    rwa [asrRead_odd] at done

/-! ### Writing the state registers -/

theorem writePrivileged_completes {s : State} (hp : Plain s) (sup : s.psr.s = true) (rs1 : RegNum) (op2 : RegImm)
    (f : State → Word → State) :
    Completes (writePrivileged s rs1 op2 f) (f s (s.r rs1 ^^^ s.operand2 op2)) 0 0 ↔
      Completes (.next (advance (f s (s.r rs1 ^^^ s.operand2 op2)))) (f s (s.r rs1 ^^^ s.operand2 op2)) 0 0 := by
  obtain ⟨watch, clean, inj⟩ := hp
  rw [writePrivileged, sup, Bool.not_true, checked_skip, checked_nil watch, withOperands_clean clean]

theorem psrIllegal_clean {s : State} (clean : RegsClean s) (rs1 : RegNum) (op2 : RegImm) :
    psrIllegal s rs1 op2 = decide (8 ≤ (s.r rs1 ^^^ s.operand2 op2).toNat % 32) := by
  have high (v : Word) : (!decide (v.extractLsb' 3 2 = 0)) = decide (8 ≤ v.toNat % 32) := by
    have field : (v.extractLsb' 3 2).toNat = v.toNat / 8 % 4 := by
      rw [BitVec.extractLsb'_toNat, Nat.shiftRight_eq_div_pow]
    rw [Bool.eq_iff_iff, Bool.not_eq_true', decide_eq_false_iff_not, decide_eq_true_iff, ← BitVec.toNat_inj, field]
    have zero : BitVec.toNat (0 : BitVec 2) = 0 := rfl
    omega
  cases op2 with
  | reg rs2 =>
    simp only [psrIllegal, readR_clean clean]
    exact high _
  | imm i =>
    simp only [psrIllegal, readR_clean clean]
    exact high _

theorem wrasr_completes {s : State} (hp : Plain s) (sup : s.psr.s = true) (rs1 : RegNum) (op2 : RegImm) {n : RegNum}
    (impl : asrImplemented n = true) :
    Completes (exec (.wrasr n rs1 op2) s) (asrWrite s n (s.r rs1 ^^^ s.operand2 op2)) 0 0 := by
  obtain ⟨watch, clean, inj⟩ := hp
  change Completes (checked s (asrChecks s n) _) _ _ _
  rw [checked_pass watch _ (asrChecks_pass sup impl), withOperands_clean clean]
  exact completes_advance _

theorem asrWrite_even (s : State) (k : Fin 4) (v : Word) : asrWrite s (BitVec.ofNat 5 (24 + 2 * k.val)) v =
    { s with wp := s.wp.set k.val { s.wp.get k with waddr := v.extractLsb' 2 30, ifEn := v.getLsbD 0 } k.isLt } := by
  obtain ⟨-, h16, h17, h18, low, index⟩ := asr_even k
  simp only [asrWrite, if_neg h16, if_neg h17, if_neg h18, low, Bool.false_eq_true, if_false, index]
  rfl

theorem asrWrite_odd (s : State) (k : Fin 4) (v : Word) : asrWrite s (BitVec.ofNat 5 (25 + 2 * k.val)) v =
    { s with wp := s.wp.set k.val { s.wp.get k with wmask := v.extractLsb' 2 30, dl := v.getLsbD 1, ds := v.getLsbD 0 } k.isLt } := by
  obtain ⟨-, h16, h17, h18, low, index⟩ := asr_odd k
  simp only [asrWrite, if_neg h16, if_neg h17, if_neg h18, low, if_true, index]
  rfl

/-- Settles O30. -/
theorem writeStateRegisters : Obligations.WriteStateRegisters := by
  intro s rs1 op2 hp v
  obtain ⟨watch, clean, inj⟩ := id hp
  refine ⟨?_, fun sup => ⟨fun window => ?_, ?_, ?_, ?_, ?_, ?_, fun k => ⟨?_, ?_⟩⟩⟩
  · change Completes (execWry rs1 op2 s) _ _ _
    rw [execWry, checked_nil watch, withOperands_clean clean]
    exact completes_advance { s with y := v }
  · change Completes (execWrpsr rs1 op2 s) _ _ _
    rw [execWrpsr, sup, if_neg (by simp), psrIllegal_clean clean, decide_eq_false (Nat.not_le.2 window), if_neg Bool.false_ne_true,
      checked_nil watch, withOperands_clean clean]
    exact completes_advance { s with psr := psrWritten s.psr v }
  · exact (writePrivileged_completes hp sup rs1 op2 fun t v => { t with wim := v.extractLsb' 0 8 }).2 (completes_advance _)
  · exact (writePrivileged_completes hp sup rs1 op2 fun t v => { t with tba := v.extractLsb' 12 20 }).2 (completes_advance _)
  · exact wrasr_completes hp sup rs1 op2 (n := 16) rfl
  · exact wrasr_completes hp sup rs1 op2 (n := 17) rfl
  · exact wrasr_completes hp sup rs1 op2 (n := 18) rfl
  · rw [← asrWrite_even]
    exact wrasr_completes hp sup rs1 op2 (asr_even k).1
  · rw [← asrWrite_odd]
    exact wrasr_completes hp sup rs1 op2 (asr_odd k).1

/-! ### Privileged, illegal and coprocessor instructions -/

theorem checked_user {s : State} (user : s.psr.s = false) (tt : BitVec 8) (rest : List (Bool × BitVec 8)) (k : Result) :
    checked s ((!s.psr.s, tt) :: rest) k = raise s tt := by
  rw [user, Bool.not_false, checked_trap]

theorem asrChecks_user {s : State} (user : s.psr.s = false) {n : RegNum} (impl : asrImplemented n = true) (k : Result) :
    checked s (asrChecks s n) k = raise s ttPrivileged := by
  rw [asrChecks, impl, user]
  exact checked_trap _ _ _ _

theorem asrChecks_absent {s : State} {n : RegNum} (absent : asrImplemented n = false) (k : Result) :
    checked s (asrChecks s n) k = raise s ttIllegal := by
  rw [asrChecks, absent, Bool.false_and, Bool.false_and, checked_skip]
  exact checked_trap _ _ _ _

/-- In user mode a privileged instruction is its trap. -/
theorem exec_privileged_user {i : Instr} (hi : privileged i = true) {s : State} (user : s.psr.s = false) :
    exec i s = raise s ttPrivileged := by
  unfold privileged at hi
  split at hi
  case h_4 rs1 op2 =>
    change execWrpsr rs1 op2 s = _
    rw [execWrpsr, user, Bool.not_false, if_pos rfl]
  case h_7 rd n => exact asrChecks_user user hi _
  case h_8 n rs1 op2 => exact asrChecks_user user hi _
  case h_22 rd rs1 op2 =>
    change execStdcq rd rs1 op2 s = _
    rw [execStdcq, user, Bool.not_false, if_pos rfl]
  case h_23 => cases hi
  all_goals exact checked_user user _ _ _

/-- Settles O31. -/
theorem privilegedTraps : Obligations.PrivilegedTraps := by
  intro i s hi user inj can
  rw [exec_privileged_user hi user]
  exact traps_raise inj can

theorem asrImplemented_absent :
    ∀ n : RegNum, n ∉ ([16, 17, 18, 24, 25, 26, 27, 28, 29, 30, 31] : List RegNum) → asrImplemented n = false := by decide

/-- Settles O32. -/
theorem illegalStateRegisters : Obligations.IllegalStateRegisters := by
  intro s hp can
  obtain ⟨watch, clean, inj⟩ := hp
  refine ⟨fun n _ absent => ⟨fun rd => ?_, fun rs1 op2 => ?_⟩, fun rs1 op2 sup window => ?_⟩
  · change Traps (checked s (asrChecks s n) _) _ _
    rw [asrChecks_absent (asrImplemented_absent n absent)]
    exact traps_raise inj can
  · change Traps (checked s (asrChecks s n) _) _ _
    rw [asrChecks_absent (asrImplemented_absent n absent)]
    exact traps_raise inj can
  · change Traps (execWrpsr rs1 op2 s) _ _
    rw [execWrpsr, sup, if_neg (by simp), psrIllegal_clean clean, decide_eq_true window, if_pos rfl, withOperands_clean clean]
    exact traps_raise inj can

/-- A coprocessor instruction that may be executed is cp_disabled. -/
theorem exec_coprocessor {i : Instr} (hi : coprocessor i = true) {s : State} (sup : privileged i = true → s.psr.s = true) :
    exec i s = raise s ttCpDisabled := by
  unfold coprocessor at hi
  split at hi
  case h_9 rd rs1 op2 =>
    change execStdcq rd rs1 op2 s = _
    rw [execStdcq, sup rfl, Bool.not_true, if_neg Bool.false_ne_true]
    rfl
  case h_11 => cases hi
  all_goals rfl

/-- Settles O33. -/
theorem unimpCoprocessorTraps : Obligations.UnimpCoprocessorTraps := by
  intro s inj
  refine ⟨fun c can => traps_raise inj can, fun i hi sup can => ?_⟩
  rw [exec_coprocessor hi sup]
  exact traps_raise inj can

theorem tag_of_flushed (x : Cache) (k : Nat) : (Cache.tag { x with tags := [] } k).val = 0 := rfl

/-- Settles O34. -/
theorem stbarFlushResults : Obligations.StbarFlushResults := by
  intro s hp
  obtain ⟨watch, clean, inj⟩ := hp
  refine ⟨?_, fun rs1 op2 => ?_⟩
  · change Completes (execStbar s) _ _ _
    rw [execStbar, checked_nil watch]
    exact completes_advance s
  · change ∃ t, execFlush rs1 op2 s = _ ∧ _
    rw [execFlush, checked_nil watch, withAddress_clean clean]
    exact ⟨_, rfl, fun k => ⟨tag_of_flushed s.icache k, tag_of_flushed s.dcache k⟩, rfl⟩

end Sys2Proof.Proofs

/-! PROOFS. Loads, stores and atomics of plain memory, in the forms without and with an ASI. -/

namespace Sys2Proof.Proofs

open Sys2Proof Sys2Proof.Machine

/-! ### The part of a word that a transfer takes -/

theorem aligned_one (a : Word) : aligned a 1 = true := by simp [aligned]

theorem aligned_two_iff (a : Word) : aligned a 2 = true ↔ a.toNat % 2 = 0 := aligned_two_pow_iff a (k := 1) (by omega)

theorem aligned_eight_iff (a : Word) : aligned a 8 = true ↔ a.toNat % 8 = 0 := aligned_two_pow_iff a (k := 3) (by omega)

theorem toNat_add_four {a : Word} (al : a.toNat % 8 = 0) : (a + 4).toNat = a.toNat + 4 := by
  have ha := a.isLt
  rw [BitVec.toNat_add]
  change (a.toNat + 4) % 2 ^ 32 = _
  omega

theorem wordBase_of_aligned {a : Word} (al : a.toNat % 4 = 0) : wordBase a = a := by
  apply BitVec.eq_of_toNat_eq
  rw [wordBase_toNat, al, Nat.sub_zero]

theorem subword_byte (w : Word) {o : Nat} (ho : o < 4) : subword w 1 o = (w.extractLsb' (8 * (3 - o)) 8).setWidth 32 := by
  have mask : ((1#32 <<< (8 * 1)) - 1 : Word) = 0xFF#32 := by decide
  rw [subword, if_neg (by omega), mask]
  interval_cases o <;> (ext i hi; simp; interval_cases i <;> simp)

theorem subword_half (w : Word) {o : Nat} (ho : o = 0 ∨ o = 2) :
    subword w 2 o = (w.extractLsb' (8 * (3 - o)) 8 ++ w.extractLsb' (8 * (3 - (o + 1))) 8 : BitVec 16).setWidth 32 := by
  have mask : ((1#32 <<< (8 * 2)) - 1 : Word) = 0xFFFF#32 := by decide
  have join (k : Nat) : (w.extractLsb' (k + 8) 8 ++ w.extractLsb' k 8 : BitVec (8 + 8)) = w.extractLsb' k (8 + 8) :=
    BitVec.extractLsb'_append_extractLsb'_eq_extractLsb' rfl
  rw [subword, if_neg (by omega), mask]
  rcases ho with rfl | rfl
  · refine Eq.trans ?_ (congrArg (BitVec.setWidth 32) (join 16)).symm
    ext i hi
    simp
    interval_cases i <;> simp
  · refine Eq.trans ?_ (congrArg (BitVec.setWidth 32) (join 0)).symm
    ext i hi
    simp
    interval_cases i <;> simp

theorem byteAt_of_base (s : State) (a : Word) : (s.wordAt (wordBase a).toNat).extractLsb' (8 * (3 - a.toNat % 4)) 8 = s.byteAt a.toNat := by
  rw [wordAt_byte s _ _ (Nat.mod_lt _ (by omega)), wordBase_toNat]
  congr 1
  omega

theorem subword_byteAt (s : State) (a : Word) :
    subword (s.wordAt (wordBase a).toNat) 1 (a.toNat % 4) = (s.byteAt a.toNat).setWidth 32 := by
  rw [subword_byte _ (Nat.mod_lt _ (by omega)), byteAt_of_base]

theorem subword_halfAt (s : State) {a : Word} (al : a.toNat % 2 = 0) :
    subword (s.wordAt (wordBase a).toNat) 2 (a.toNat % 4) = (s.byteAt a.toNat ++ s.byteAt (a.toNat + 1) : BitVec 16).setWidth 32 := by
  have second : (s.wordAt (wordBase a).toNat).extractLsb' (8 * (3 - (a.toNat % 4 + 1))) 8 = s.byteAt (a.toNat + 1) := by
    rw [wordAt_byte s _ _ (by omega), wordBase_toNat]
    congr 1
    omega
  rw [subword_half _ (by omega), byteAt_of_base, second]

theorem subword_wordAt (s : State) {a : Word} (al : a.toNat % 4 = 0) :
    subword (s.wordAt (wordBase a).toNat) 4 (a.toNat % 4) = s.wordAt a.toNat := by
  rw [subword, if_pos rfl, wordBase_of_aligned al]

theorem sextByte_setWidth (b : Byte) : sextByte (b.setWidth 32) = b.signExtend 32 := by
  simp [sextByte, BitVec.extractLsb'_setWidth_of_le]

theorem lowByte_setWidth (b : Byte) : lowByte (b.setWidth 32) = b.setWidth 32 := by
  ext i hi
  simp [lowByte]
  interval_cases i <;> simp

theorem sextHalf_setWidth (h : BitVec 16) : sextHalf (h.setWidth 32) = h.signExtend 32 := by
  simp [sextHalf, BitVec.extractLsb'_setWidth_of_le]

theorem lowHalf_setWidth (h : BitVec 16) : lowHalf (h.setWidth 32) = h.setWidth 32 := by
  ext i hi
  simp [lowHalf]
  interval_cases i <;> simp

/-! ### The access itself -/

theorem withAligned_pass {s : State} {a : Word} {n : Nat} (al : aligned a n = true) (k : Result) : withAligned s a n k = k := by
  rw [withAligned, if_pos al]

theorem withWatch_pass {s : State} {l w : Bool} {a : Word} (nw : NoWatch s l w a) (k : Result) : withWatch s l w a k = k := by
  rw [withWatch, nw, if_neg Bool.false_ne_true]

section
variable {s : State} {a : Word} (ram : PlainRam s a) (use : CacheUse)
include ram

theorem withLoad_byte (k : State → Word → Result) : withLoad s use a .byte k = k s ((s.byteAt a.toNat).setWidth 32) := by
  rw [withLoad, dataRead_plain ram, ← subword_byteAt]
  rfl

theorem withLoad_half (al : a.toNat % 2 = 0) (k : State → Word → Result) :
    withLoad s use a .half k = k s ((s.byteAt a.toNat ++ s.byteAt (a.toNat + 1) : BitVec 16).setWidth 32) := by
  rw [withLoad, dataRead_plain ram, ← subword_halfAt s al]
  rfl

theorem withLoad_word (al : a.toNat % 4 = 0) (k : State → Word → Result) : withLoad s use a .word k = k s (s.wordAt a.toNat) := by
  rw [withLoad, dataRead_plain ram, ← subword_wordAt s al]
  rfl

theorem withLoad_dword (al : a.toNat % 4 = 0) (k : State → Word → Result) : withLoad s use a .dword k = k s (s.wordAt a.toNat) := by
  rw [withLoad, dataRead_plain ram, ← subword_wordAt s al]
  rfl

theorem withLoadPair_plain (al : a.toNat % 8 = 0) (ram4 : PlainRam s (a + 4)) (k : State → Word → Word → Result) :
    withLoadPair s use a k = k s (s.wordAt a.toNat) (s.wordAt (a.toNat + 4)) := by
  rw [withLoadPair, withLoad_dword ram use (by omega), withLoad_dword ram4 use (by rw [toNat_add_four al]; omega), toNat_add_four al]

end

/-! ### Writing a pair of registers -/

theorem add_one_ne_zero_of_even {rd : RegNum} (even : rd.toNat % 2 = 0) : rd + 1 ≠ 0 := by
  intro h
  have := congrArg BitVec.toNat h
  rw [BitVec.toNat_add] at this
  change (rd.toNat + 1) % 2 ^ 5 = 0 at this
  omega

theorem ne_add_one (rd : RegNum) : rd ≠ rd + 1 := by
  revert rd
  decide

theorem writePair_spec {u : State} (h : NoInjection u) {rd : RegNum} (even : rd.toNat % 2 = 0) (hi lo : Word) :
    WritesPair u (writePair u rd hi lo) rd hi lo := by
  obtain ⟨f1, f2, f3, f4⟩ := writeR_spec h rd hi
  obtain ⟨g1, g2, g3, g4⟩ := writeR_spec (writeR_noInjection h rd hi) (rd + 1) lo
  rw [writeR_psr] at g1 g4
  refine ⟨fun hrd => ⟨?_, ?_⟩, (g1 (add_one_ne_zero_of_even even)).1, (g1 (add_one_ne_zero_of_even even)).2, fun n hn hn1 => ?_, g3,
    fun i h1 h2 => ?_⟩
  · exact (g2 rd (ne_add_one rd)).trans (f1 hrd).1
  · rw [writePair, g4 _ (.inr fun e => ne_add_one rd (regIndex_inj e))]
    exact (f1 hrd).2
  · exact (g2 n hn1).trans (f2 n hn)
  · exact (g4 i (.inr h2)).trans (f4 i h1)

theorem writeR_frame (u : State) (rd : RegNum) (v : Word) : ∃ i, writeR u rd v = { u with ireg := i } := by
  unfold writeR
  split <;> exact ⟨_, rfl⟩

theorem completesPair_writePair {u : State} (h : NoInjection u) {rd : RegNum} (even : rd.toNat % 2 = 0) (hi lo : Word) :
    CompletesPair (.next (advance (writePair u rd hi lo))) u rd hi lo := by
  refine ⟨_, rfl, writePair_spec h even hi lo, ?_, fun a => byteAt_congr (by simp [writePair]) a⟩
  obtain ⟨i1, first⟩ := writeR_frame u rd hi
  obtain ⟨i2, second⟩ := writeR_frame { u with ireg := i1 } (rd + 1) lo
  rw [writePair, first, second]
  rfl

theorem oddReg_eq (n : RegNum) : oddReg n = decide (n.toNat % 2 = 1) := by
  rw [oddReg, BitVec.getLsbD, Nat.testBit_zero]

/-! ### The forms without and with an ASI -/

section
variable {s : State} (hp : Plain s) (rd rs1 : RegNum) (op2 : RegImm)
include hp

theorem loadOp_eq (nw : NoWatch s true false (ea s rs1 op2)) (sz : Size) (ext : Word → Word) :
    loadOp s rd rs1 op2 sz ext = withAligned s (ea s rs1 op2) sz.bytes
      (withLoad s .normal (ea s rs1 op2) sz fun s2 v => .next (advance (writeR s2 rd (ext v)))) := by
  obtain ⟨watch, clean, -⟩ := hp
  rw [loadOp, checked_nil watch, withAccess_clean clean, withWatch_pass nw]

theorem storeOp_eq (nw : NoWatch s false true (ea s rs1 op2)) (sz : Size) (low : Word → Word) :
    storeOp s rd rs1 op2 sz low = withAligned s (ea s rs1 op2) sz.bytes
      (withStore s (ea s rs1 op2) sz (low (s.r rd)) fun s3 => .next (advance s3)) := by
  obtain ⟨watch, clean, -⟩ := hp
  rw [storeOp, checked_nil watch, withAccess_clean clean, withWatch_pass nw, withR_clean clean]

theorem execLdd_eq (even : rd.toNat % 2 = 0) (nw : NoWatch s true false (ea s rs1 op2)) :
    execLdd rd rs1 op2 s = withAligned s (ea s rs1 op2) 8
      (withLoadPair s .normal (ea s rs1 op2) fun s2 hi lo => .next (advance (writePair s2 rd hi lo))) := by
  obtain ⟨watch, clean, -⟩ := hp
  rw [execLdd, oddReg_eq, decide_eq_false (by omega), checked_skip, checked_nil watch, withAccess_clean clean, withWatch_pass nw]

theorem execStd_eq (even : rd.toNat % 2 = 0) (nw : NoWatch s false true (ea s rs1 op2)) :
    execStd rd rs1 op2 s = withAligned s (ea s rs1 op2) 8
      (withStorePair s (ea s rs1 op2) (s.r rd) (s.r (rd + 1)) fun s3 => .next (advance s3)) := by
  obtain ⟨watch, clean, -⟩ := hp
  rw [execStd, oddReg_eq, decide_eq_false (by omega), checked_skip, checked_nil watch, withAccess_clean clean, withWatch_pass nw,
    withR_clean clean, withR_clean clean]

theorem execLdstub_eq (nw : NoWatch s true true (ea s rs1 op2)) :
    execLdstub rd rs1 op2 s = withLoad s .normal (ea s rs1 op2) .byte fun s2 v =>
      withStore s2 (ea s rs1 op2) .byte 0xFF#32 fun s3 => .next (advance (writeR s3 rd (lowByte v))) := by
  obtain ⟨watch, clean, -⟩ := hp
  rw [execLdstub, checked_nil watch, withAccess_clean clean, withWatch_pass nw]

theorem execSwap_eq (nw : NoWatch s true true (ea s rs1 op2)) :
    execSwap rd rs1 op2 s = withAligned s (ea s rs1 op2) 4
      (withLoad s .normal (ea s rs1 op2) .word fun s3 w =>
        withStore s3 (ea s rs1 op2) .word (s.r rd) fun s4 => .next (advance (writeR s4 rd w))) := by
  obtain ⟨watch, clean, -⟩ := hp
  rw [execSwap, checked_nil watch, withAccess_clean clean, withWatch_pass nw, withR_clean clean]

variable (sup : s.psr.s = true) {asi : BitVec 8} {rs2 : RegNum}
include sup

/-- In supervisor mode the i = 0 form goes on with the space of its ASI. -/
theorem withAlternate_eq {odd : Bool} (even : odd = false) {l w : Bool} (nw : NoWatch s l w (s.r rs1 + s.r rs2))
    (k : State → AsiSpace → Word → Result) :
    withAlternate s odd rs1 (.reg asi rs2) l w k = k s (asiSpace asi) (s.r rs1 + s.r rs2) := by
  obtain ⟨watch, clean, -⟩ := hp
  rw [withAlternate, sup, even]
  exact (checked_pass watch _ (by simp [AltArg.illegal])).trans ((withAccess_clean clean rs1 (.reg rs2) l w _).trans (withWatch_pass nw _))

end

/-! ### Loads -/

section
variable {s : State} (inj : NoInjection s) {a : Word} (ram : PlainRam s a) (use : CacheUse) (rd : RegNum)
include inj ram

theorem loadByte_completes (ext : Word → Word) :
    Completes (withAligned s a Size.byte.bytes (withLoad s use a .byte fun s2 v => .next (advance (writeR s2 rd (ext v))))) s rd
      (ext ((s.byteAt a.toNat).setWidth 32)) := by
  rw [withAligned_pass (show aligned a Size.byte.bytes = true from aligned_one a), withLoad_byte ram]
  exact completes_writeR inj rd _

theorem loadHalf_completes (al : a.toNat % 2 = 0) (ext : Word → Word) :
    Completes (withAligned s a Size.half.bytes (withLoad s use a .half fun s2 v => .next (advance (writeR s2 rd (ext v))))) s rd
      (ext ((s.byteAt a.toNat ++ s.byteAt (a.toNat + 1) : BitVec 16).setWidth 32)) := by
  rw [withAligned_pass (show aligned a Size.half.bytes = true from (aligned_two_iff a).2 al), withLoad_half ram use al]
  exact completes_writeR inj rd _

theorem loadWord_completes (al : a.toNat % 4 = 0) :
    Completes (withAligned s a Size.word.bytes (withLoad s use a .word fun s2 v => .next (advance (writeR s2 rd (id v))))) s rd
      (s.wordAt a.toNat) := by
  rw [withAligned_pass (show aligned a Size.word.bytes = true from (aligned_four_iff a).2 al), withLoad_word ram use al]
  exact completes_writeR inj rd _

theorem loadPair_completes (even : rd.toNat % 2 = 0) (al : a.toNat % 8 = 0) (ram4 : PlainRam s (a + 4)) :
    CompletesPair (withAligned s a 8 (withLoadPair s use a fun s2 hi lo => .next (advance (writePair s2 rd hi lo)))) s rd
      (s.wordAt a.toNat) (s.wordAt (a.toNat + 4)) := by
  rw [withAligned_pass ((aligned_eight_iff a).2 al), withLoadPair_plain ram use al ram4]
  exact completesPair_writePair inj even _ _

end

/-- Settles O36. -/
theorem loadResults : Obligations.LoadResults := by
  intro s rd rs1 op2 hp a b ram nw
  have inj := hp.2.2
  refine ⟨?_, ?_, fun al => ⟨?_, ?_⟩, fun al => ?_, fun even al ram4 => ?_⟩
  · change Completes (loadOp s rd rs1 op2 .byte sextByte) _ _ _
    rw [loadOp_eq hp rd rs1 op2 nw, ← sextByte_setWidth]
    exact loadByte_completes inj ram .normal rd sextByte
  · change Completes (loadOp s rd rs1 op2 .byte lowByte) _ _ _
    rw [loadOp_eq hp rd rs1 op2 nw, ← lowByte_setWidth]
    exact loadByte_completes inj ram .normal rd lowByte
  · change Completes (loadOp s rd rs1 op2 .half sextHalf) _ _ _
    rw [loadOp_eq hp rd rs1 op2 nw, ← sextHalf_setWidth]
    exact loadHalf_completes inj ram .normal rd al sextHalf
  · change Completes (loadOp s rd rs1 op2 .half lowHalf) _ _ _
    rw [loadOp_eq hp rd rs1 op2 nw, ← lowHalf_setWidth]
    exact loadHalf_completes inj ram .normal rd al lowHalf
  · change Completes (loadOp s rd rs1 op2 .word id) _ _ _
    rw [loadOp_eq hp rd rs1 op2 nw]
    exact loadWord_completes inj ram .normal rd al
  · change CompletesPair (execLdd rd rs1 op2 s) _ _ _ _
    rw [execLdd_eq hp rd rs1 op2 even nw]
    exact loadPair_completes inj ram .normal rd even al ram4

/-! ### Stores -/

/-- From `s` to `t` the bytes of the list are stored at `a`, with valid check bits, and nothing else of the state changes. -/
def Stored (s t : State) (a : Word) (l : List Byte) : Prop :=
  StoresBytes s t a l ∧ StoresFlips s t a l.length ∧ ∃ m f, t = { s with mem := m, memFlip := f }

/-- One transfer of a byte, halfword or word stores its bytes. -/
theorem stored_of_transfer {s t : State} {a : Word} {sz : Size} (lane : LaneOk sz.bytes (a.toNat % 4)) {v : Word}
    (bytes : StoresBytes s t a (storeBytes sz.bytes v)) (frame : t = { s with mem := t.mem, memFlip := t.memFlip })
    (kept : ∀ x, x / 4 ≠ a.toNat / 4 → t.flipAt x = s.flipAt x)
    (fresh : ∀ b, ramBank s.dev a = some b → b.en = true → t.flipAt a.toNat = 0) : Stored s t a (storeBytes sz.bytes v) := by
  have len := storeBytes_length lane v
  have size : sz.bytes ≤ 4 := by cases sz <;> decide
  have fits : (a.toNat + sz.bytes - 1) / 4 = a.toNat / 4 := by rcases lane with ⟨h, _⟩ | ⟨h, _⟩ | ⟨h, _⟩ <;> omega
  refine ⟨bytes, ⟨fun x hx => kept x ?_, fun k hk lt b hb en => ?_⟩, _, _, frame⟩
  · rw [len] at hx
    omega
  · have k0 : k = 0 := by
      simp only [List.mem_cons, List.not_mem_nil, or_false] at hk
      omega
    subst k0
    exact fresh b (by simpa using hb) en

theorem dataWrite_stored {s : State} {a : Word} (ram : WritableRam s a) {sz : Size} (lane : LaneOk sz.bytes (a.toNat % 4)) (v : Word) :
    ∃ t, dataWrite s a sz v = .ok () t ∧ Stored s t a (storeBytes sz.bytes v) := by
  obtain ⟨t, written, bytes, frame, kept, fresh⟩ := dataWrite_plain ram lane v
  exact ⟨t, written, stored_of_transfer lane bytes frame kept fresh⟩

/-- A place of RAM that a store elsewhere has left alone stays writable. -/
theorem Stored.writable {s t : State} {a b : Word} {l : List Byte} (h : Stored s t a l) (ram : WritableRam s b)
    (apart : a.toNat + l.length ≤ b.toNat) (alb : b.toNat % 4 = 0) (pos : 0 < l.length) : WritableRam t b := by
  obtain ⟨-, flips, m, f, rfl⟩ := h
  obtain ⟨⟨area, bank, bus, erb, free, off, idle⟩, prot, ewb⟩ := ram
  refine ⟨⟨area, bank, bus, erb, ?_, off, idle⟩, prot, ewb⟩
  rw [flips.1 _ (.inr _)]
  · exact free
  · rw [wordBase_of_aligned alb]
    omega

theorem Stored.append {s t u : State} {a : Word} {l l' : List Byte} (h : Stored s t a l) (k : Stored t u (a + 4) l')
    (len : l.length = 4) (len' : l'.length = 4) (al : a.toNat % 8 = 0) : Stored s u a (l ++ l') := by
  have next := toNat_add_four al
  obtain ⟨⟨in1, out1⟩, ⟨kept1, fresh1⟩, m, f, rfl⟩ := h
  obtain ⟨⟨in2, out2⟩, ⟨kept2, fresh2⟩, m', f', rfl⟩ := k
  refine ⟨⟨fun k hk => ?_, fun x hx => ?_⟩, ⟨fun x hx => ?_, fun k hk lt b hb en => ?_⟩, m', f', rfl⟩
  · rw [List.length_append] at hk
    rcases Nat.lt_or_ge k 4 with low | high
    · rw [out2 _ (.inl (by omega)), in1 k (by omega), List.getElem_append_left (by omega)]
    · have := in2 (k - 4) (by omega)
      rw [List.getElem_append_right (by omega)]
      simp only [len]
      rw [← this]
      congr 1
      omega
  · rw [List.length_append] at hx
    rw [out2 x (by omega), out1 x (by omega)]
  · rw [List.length_append] at hx
    rw [kept2 x (by omega), kept1 x (by omega)]
  · simp only [List.mem_cons, List.not_mem_nil, or_false] at hk
    rcases hk with rfl | rfl
    · rw [kept2 _ (.inl (by omega))]
      exact fresh1 0 (by simp) (by omega) b hb en
    · have := fresh2 0 (by simp) (by omega) b (by simpa using hb) en
      rwa [next] at this

/-- An instruction that stores, writes `r[rd]` and advances completes so. -/
theorem completesStore_of_stored {s t : State} {a : Word} {l : List Byte} (inj : NoInjection s) (h : Stored s t a l) (rd : RegNum)
    (v : Word) : CompletesStore (.next (advance (writeR t rd v))) s a l rd v := by
  obtain ⟨⟨inside, outside⟩, ⟨kept, fresh⟩, m, f, rfl⟩ := h
  obtain ⟨h1, h2, h3, h4⟩ := writeR_spec (s := { s with mem := m, memFlip := f }) inj rd v
  obtain ⟨i, frame⟩ := writeR_frame { s with mem := m, memFlip := f } rd v
  rw [frame] at h1 h2 h3 h4 ⊢
  exact ⟨_, rfl, ⟨inside, outside⟩, ⟨kept, fresh⟩, ⟨h1, h2, h3, h4⟩, rfl⟩

theorem storeBytes_byte (v : Word) : storeBytes Size.byte.bytes (lowByte v) = [v.extractLsb' 0 8] := by
  have low : (lowByte v).extractLsb' 0 8 = v.extractLsb' 0 8 := by
    ext i hi
    simp [lowByte]
    interval_cases i <;> simp
  rw [← low]
  rfl

theorem storeBytes_half (v : Word) : storeBytes Size.half.bytes (lowHalf v) = [v.extractLsb' 8 8, v.extractLsb' 0 8] := by
  have low (k : Nat) (hk : k = 0 ∨ k = 8) : (lowHalf v).extractLsb' k 8 = v.extractLsb' k 8 := by
    rcases hk with rfl | rfl <;>
      (ext i hi
       simp [lowHalf]
       interval_cases i <;> simp)
  rw [← low 0 (.inl rfl), ← low 8 (.inr rfl)]
  rfl

theorem storeBytes_word (v : Word) : storeBytes 4 v = bytesOfWord v := rfl

theorem bytesOfWord_length (v : Word) : (bytesOfWord v).length = 4 := rfl

section
variable {s : State} (inj : NoInjection s) {a : Word} (ram : WritableRam s a)
include inj ram

theorem store_completes {sz : Size} (al : aligned a sz.bytes = true) (lane : LaneOk sz.bytes (a.toNat % 4)) (v : Word) :
    CompletesStore (withAligned s a sz.bytes (withStore s a sz v fun s3 => .next (advance s3))) s a (storeBytes sz.bytes v) 0 0 := by
  obtain ⟨t, written, stored⟩ := dataWrite_stored ram lane v
  rw [withAligned_pass al, withStore, written]
  exact completesStore_of_stored inj stored 0 0

theorem storePair_completes (al : a.toNat % 8 = 0) (ram4 : WritableRam s (a + 4)) (hi lo : Word) :
    CompletesStore (withAligned s a 8 (withStorePair s a hi lo fun s3 => .next (advance s3))) s a (bytesOfWord hi ++ bytesOfWord lo) 0 0 := by
  have next := toNat_add_four al
  obtain ⟨t, written, stored⟩ := dataWrite_stored (sz := .dword) ram (.inr (.inr ⟨rfl, by omega⟩)) hi
  have ram4 : WritableRam t (a + 4) := stored.writable ram4 (by rw [next]; exact le_refl _) (by omega) (show 0 < 4 by omega)
  obtain ⟨u, written4, stored4⟩ := dataWrite_stored (sz := .dword) ram4 (.inr (.inr ⟨rfl, by omega⟩)) lo
  rw [withAligned_pass ((aligned_eight_iff a).2 al), withStorePair, withStore, written]
  simp only
  rw [withStore, written4]
  exact completesStore_of_stored inj (stored.append stored4 rfl rfl al) 0 0

theorem loadStoreByte_completes (use : CacheUse) (rd : RegNum) :
    CompletesStore (withLoad s use a .byte fun s2 v => withStore s2 a .byte 0xFF#32 fun s3 => .next (advance (writeR s3 rd (lowByte v))))
      s a [0xFF] rd ((s.byteAt a.toNat).setWidth 32) := by
  obtain ⟨t, written, stored⟩ := dataWrite_stored (sz := .byte) ram (.inl ⟨rfl, Nat.mod_lt _ (by omega)⟩) 0xFF#32
  rw [withLoad_byte ram.1, withStore, written, lowByte_setWidth]
  exact completesStore_of_stored inj stored rd _

theorem swap_completes (use : CacheUse) (rd : RegNum) (al : a.toNat % 4 = 0) (v : Word) :
    CompletesStore (withAligned s a 4 (withLoad s use a .word fun s3 w => withStore s3 a .word v fun s4 => .next (advance (writeR s4 rd w))))
      s a (bytesOfWord v) rd (s.wordAt a.toNat) := by
  obtain ⟨t, written, stored⟩ := dataWrite_stored (sz := .word) ram (.inr (.inr ⟨rfl, al⟩)) v
  rw [withAligned_pass ((aligned_four_iff a).2 al), withLoad_word ram.1 use al, withStore, written]
  exact completesStore_of_stored inj stored rd _

theorem storeByte_completes (v : Word) :
    CompletesStore (withAligned s a Size.byte.bytes (withStore s a .byte (lowByte v) fun s3 => .next (advance s3))) s a
      [v.extractLsb' 0 8] 0 0 := by
  rw [← storeBytes_byte]
  exact store_completes inj ram (sz := .byte) (aligned_one a) (.inl ⟨rfl, Nat.mod_lt _ (by omega)⟩) _

theorem storeHalf_completes (al : a.toNat % 2 = 0) (v : Word) :
    CompletesStore (withAligned s a Size.half.bytes (withStore s a .half (lowHalf v) fun s3 => .next (advance s3))) s a
      [v.extractLsb' 8 8, v.extractLsb' 0 8] 0 0 := by
  rw [← storeBytes_half]
  exact store_completes inj ram (sz := .half) ((aligned_two_iff a).2 al) (.inr (.inl ⟨rfl, by omega⟩)) _

theorem storeWord_completes (al : a.toNat % 4 = 0) (v : Word) :
    CompletesStore (withAligned s a Size.word.bytes (withStore s a .word (id v) fun s3 => .next (advance s3))) s a (bytesOfWord v) 0 0 :=
  store_completes inj ram (sz := .word) ((aligned_four_iff a).2 al) (.inr (.inr ⟨rfl, al⟩)) v

end

/-- Settles O37. -/
theorem storeResults : Obligations.StoreResults := by
  intro s rd rs1 op2 hp a v ram nw
  have inj := hp.2.2
  refine ⟨?_, fun al => ?_, fun al => ?_, fun even al ram4 => ?_⟩
  · change CompletesStore (storeOp s rd rs1 op2 .byte lowByte) _ _ _ _ _
    rw [storeOp_eq hp rd rs1 op2 nw]
    exact storeByte_completes inj ram v
  · change CompletesStore (storeOp s rd rs1 op2 .half lowHalf) _ _ _ _ _
    rw [storeOp_eq hp rd rs1 op2 nw]
    exact storeHalf_completes inj ram al v
  · change CompletesStore (storeOp s rd rs1 op2 .word id) _ _ _ _ _
    rw [storeOp_eq hp rd rs1 op2 nw]
    exact storeWord_completes inj ram al v
  · change CompletesStore (execStd rd rs1 op2 s) _ _ _ _ _
    rw [execStd_eq hp rd rs1 op2 even nw]
    exact storePair_completes inj ram al ram4 _ _

/-- Settles O38. -/
theorem atomicResults : Obligations.AtomicResults := by
  intro s rd rs1 op2 hp a ram nw
  have inj := hp.2.2
  refine ⟨?_, fun al => ?_⟩
  · change CompletesStore (execLdstub rd rs1 op2 s) _ _ _ _ _
    rw [execLdstub_eq hp rd rs1 op2 nw]
    exact loadStoreByte_completes inj ram .normal rd
  · change CompletesStore (execSwap rd rs1 op2 s) _ _ _ _ _
    rw [execSwap_eq hp rd rs1 op2 nw]
    exact swap_completes inj ram .normal rd al _

/-! ### The same with an ASI that names memory -/

theorem asiSpace_memory {asi : BitVec 8} (h : asi.extractLsb' 0 4 ∈ ([0, 1, 2, 3, 4, 7, 8, 9, 10, 11] : List (BitVec 4))) :
    ∃ use, asiSpace asi = .memory use := by
  unfold asiSpace
  generalize asi.extractLsb' 0 4 = k at h ⊢
  simp only [List.mem_cons, List.not_mem_nil, or_false] at h
  rcases h with rfl | rfl | rfl | rfl | rfl | rfl | rfl | rfl | rfl | rfl <;> exact ⟨_, rfl⟩

section
variable {s : State} (hp : Plain s) (sup : s.psr.s = true) (rd rs1 : RegNum) {asi : BitVec 8} {rs2 : RegNum} {use : CacheUse}
  (mem : asiSpace asi = .memory use)
include hp sup mem

theorem loadAltOp_memory (nw : NoWatch s true false (s.r rs1 + s.r rs2)) (sz : Size) (ext : Word → Word) :
    loadAltOp s rd rs1 (.reg asi rs2) sz ext = withAligned s (s.r rs1 + s.r rs2) sz.bytes
      (withLoad s use (s.r rs1 + s.r rs2) sz fun s2 v => .next (advance (writeR s2 rd (ext v)))) := by
  rw [loadAltOp, withAlternate_eq hp rs1 sup rfl nw, mem]

theorem storeAltOp_memory (nw : NoWatch s false true (s.r rs1 + s.r rs2)) (sz : Size) (low : Word → Word) :
    storeAltOp s rd rs1 (.reg asi rs2) sz low = withAligned s (s.r rs1 + s.r rs2) sz.bytes
      (withStore s (s.r rs1 + s.r rs2) sz (low (s.r rd)) fun s3 => .next (advance s3)) := by
  rw [storeAltOp, withAlternate_eq hp rs1 sup rfl nw, mem, withR_clean hp.2.1]

theorem execLdda_memory (even : rd.toNat % 2 = 0) (nw : NoWatch s true false (s.r rs1 + s.r rs2)) :
    execLdda rd rs1 (.reg asi rs2) s = withAligned s (s.r rs1 + s.r rs2) 8
      (withLoadPair s use (s.r rs1 + s.r rs2) fun s2 hi lo => .next (advance (writePair s2 rd hi lo))) := by
  rw [execLdda, withAlternate_eq hp rs1 sup (by simp [oddReg_eq, even]) nw, mem]

theorem execStda_memory (even : rd.toNat % 2 = 0) (nw : NoWatch s false true (s.r rs1 + s.r rs2)) :
    execStda rd rs1 (.reg asi rs2) s = withAligned s (s.r rs1 + s.r rs2) 8
      (withStorePair s (s.r rs1 + s.r rs2) (s.r rd) (s.r (rd + 1)) fun s3 => .next (advance s3)) := by
  rw [execStda, withAlternate_eq hp rs1 sup (by simp [oddReg_eq, even]) nw, mem, withR_clean hp.2.1, withR_clean hp.2.1]

theorem execLdstuba_memory (nw : NoWatch s true true (s.r rs1 + s.r rs2)) :
    execLdstuba rd rs1 (.reg asi rs2) s = withLoad s use (s.r rs1 + s.r rs2) .byte fun s2 v =>
      withStore s2 (s.r rs1 + s.r rs2) .byte 0xFF#32 fun s3 => .next (advance (writeR s3 rd (lowByte v))) := by
  rw [execLdstuba, withAlternate_eq hp rs1 sup rfl nw, mem]

theorem execSwapa_memory (nw : NoWatch s true true (s.r rs1 + s.r rs2)) :
    execSwapa rd rs1 (.reg asi rs2) s = withAligned s (s.r rs1 + s.r rs2) 4
      (withLoad s use (s.r rs1 + s.r rs2) .word fun s3 w =>
        withStore s3 (s.r rs1 + s.r rs2) .word (s.r rd) fun s4 => .next (advance (writeR s4 rd w))) := by
  rw [execSwapa, withAlternate_eq hp rs1 sup rfl nw, mem, withR_clean hp.2.1]

end

/-- Settles O39. -/
theorem alternateMemoryResults : Obligations.AlternateMemoryResults := by
  intro s rd rs1 asi rs2 hp sup hasi a x b v
  obtain ⟨use, mem⟩ := asiSpace_memory hasi
  have inj := hp.2.2
  refine ⟨fun ram nw => ⟨?_, ?_, fun al => ⟨?_, ?_⟩, fun al => ?_, fun even al ram4 => ?_⟩,
    fun ram nw => ⟨?_, fun al => ?_, fun al => ?_, fun even al ram4 => ?_⟩, fun ram nw => ⟨?_, fun al => ?_⟩⟩
  · change Completes (loadAltOp s rd rs1 x .byte sextByte) _ _ _
    rw [loadAltOp_memory hp sup rd rs1 mem nw, ← sextByte_setWidth]
    exact loadByte_completes inj ram use rd sextByte
  · change Completes (loadAltOp s rd rs1 x .byte lowByte) _ _ _
    rw [loadAltOp_memory hp sup rd rs1 mem nw, ← lowByte_setWidth]
    exact loadByte_completes inj ram use rd lowByte
  · change Completes (loadAltOp s rd rs1 x .half sextHalf) _ _ _
    rw [loadAltOp_memory hp sup rd rs1 mem nw, ← sextHalf_setWidth]
    exact loadHalf_completes inj ram use rd al sextHalf
  · change Completes (loadAltOp s rd rs1 x .half lowHalf) _ _ _
    rw [loadAltOp_memory hp sup rd rs1 mem nw, ← lowHalf_setWidth]
    exact loadHalf_completes inj ram use rd al lowHalf
  · change Completes (loadAltOp s rd rs1 x .word id) _ _ _
    rw [loadAltOp_memory hp sup rd rs1 mem nw]
    exact loadWord_completes inj ram use rd al
  · change CompletesPair (execLdda rd rs1 x s) _ _ _ _
    rw [execLdda_memory hp sup rd rs1 mem even nw]
    exact loadPair_completes inj ram use rd even al ram4
  · change CompletesStore (storeAltOp s rd rs1 x .byte lowByte) _ _ _ _ _
    rw [storeAltOp_memory hp sup rd rs1 mem nw]
    exact storeByte_completes inj ram v
  · change CompletesStore (storeAltOp s rd rs1 x .half lowHalf) _ _ _ _ _
    rw [storeAltOp_memory hp sup rd rs1 mem nw]
    exact storeHalf_completes inj ram al v
  · change CompletesStore (storeAltOp s rd rs1 x .word id) _ _ _ _ _
    rw [storeAltOp_memory hp sup rd rs1 mem nw]
    exact storeWord_completes inj ram al v
  · change CompletesStore (execStda rd rs1 x s) _ _ _ _ _
    rw [execStda_memory hp sup rd rs1 mem even nw]
    exact storePair_completes inj ram al ram4 _ _
  · change CompletesStore (execLdstuba rd rs1 x s) _ _ _ _ _
    rw [execLdstuba_memory hp sup rd rs1 mem nw]
    exact loadStoreByte_completes inj ram use rd
  · change CompletesStore (execSwapa rd rs1 x s) _ _ _ _ _
    rw [execSwapa_memory hp sup rd rs1 mem nw]
    exact swap_completes inj ram use rd al _

end Sys2Proof.Proofs

/-! PROOFS. Alternate-space accesses to the caches, and the accesses that trap: misaligned, illegal, protected, unanswered. -/

namespace Sys2Proof.Proofs

open Sys2Proof Sys2Proof.Machine

/-! ### Flushing by ASI 5 and 6 -/

theorem asiSpace_flush {asi : BitVec 8} {c : CacheId}
    (h : (asi.extractLsb' 0 4 = 5 ∧ c = CacheId.icache) ∨ (asi.extractLsb' 0 4 = 6 ∧ c = CacheId.dcache)) : asiSpace asi = .flush c := by
  unfold asiSpace
  rcases h with ⟨k, rfl⟩ | ⟨k, rfl⟩ <;> rw [k] <;> rfl

theorem flushesTo_flushCache (s : State) (c : CacheId) : FlushesTo s (advance (flushCache s c)) c := by
  cases c <;> exact ⟨fun k => rfl, rfl, rfl⟩

theorem flushCache_ireg (s : State) (c : CacheId) : (flushCache s c).ireg = s.ireg := by cases c <;> rfl

theorem flushesTo_writeR {s : State} (inj : NoInjection s) (c : CacheId) (rd : RegNum) (v : Word) :
    FlushesTo s (advance (writeR (flushCache s c) rd v)) c ∧ WritesReg s (advance (writeR (flushCache s c) rd v)) rd v := by
  have inj' : NoInjection (flushCache s c) := by cases c <;> exact inj
  obtain ⟨h1, h2, h3, h4⟩ := writeR_spec inj' rd v
  obtain ⟨i, frame⟩ := writeR_frame (flushCache s c) rd v
  rw [frame] at h1 h2 h3 h4 ⊢
  cases c <;> exact ⟨⟨fun k => rfl, rfl, rfl⟩, h1, h2, h3, h4⟩

/-- A read past the cache of readable RAM, after a flush. -/
theorem withPhysRead_flushed {s : State} {a : Word} (ram : ReadableRam s a) (c : CacheId) (sz : Size) (k : State → Word → Result) :
    withPhysRead (flushCache s c) a sz k = k (flushCache s c) (subword (s.wordAt (wordBase a).toNat) sz.bytes (a.toNat % 4)) := by
  have ram' : ReadableRam (flushCache s c) a := by cases c <;> exact ram
  rw [withPhysRead, busRead_readable ram']
  cases c <;> rfl

section
variable {s : State} (hp : Plain s) (sup : s.psr.s = true) (rd rs1 : RegNum) {asi : BitVec 8} {rs2 : RegNum} {c : CacheId}
  (flush : asiSpace asi = .flush c)
include hp sup flush

theorem loadAltOp_flush (nw : NoWatch s true false (s.r rs1 + s.r rs2)) {sz : Size} (al : aligned (s.r rs1 + s.r rs2) sz.bytes = true)
    (ext : Word → Word) : loadAltOp s rd rs1 (.reg asi rs2) sz ext = .next (advance (flushCache s c)) := by
  rw [loadAltOp, withAlternate_eq hp rs1 sup rfl nw, flush, withAligned_pass al]

theorem storeAltOp_flush (nw : NoWatch s false true (s.r rs1 + s.r rs2)) {sz : Size} (al : aligned (s.r rs1 + s.r rs2) sz.bytes = true)
    (low : Word → Word) : storeAltOp s rd rs1 (.reg asi rs2) sz low = .next (advance (flushCache s c)) := by
  rw [storeAltOp, withAlternate_eq hp rs1 sup rfl nw, flush, withR_clean hp.2.1, withAligned_pass al]

theorem execLdda_flush (even : rd.toNat % 2 = 0) (nw : NoWatch s true false (s.r rs1 + s.r rs2))
    (al : aligned (s.r rs1 + s.r rs2) 8 = true) : execLdda rd rs1 (.reg asi rs2) s = .next (advance (flushCache s c)) := by
  rw [execLdda, withAlternate_eq hp rs1 sup (by simp [oddReg_eq, even]) nw, flush, withAligned_pass al]

theorem execStda_flush (even : rd.toNat % 2 = 0) (nw : NoWatch s false true (s.r rs1 + s.r rs2))
    (al : aligned (s.r rs1 + s.r rs2) 8 = true) : execStda rd rs1 (.reg asi rs2) s = .next (advance (flushCache s c)) := by
  rw [execStda, withAlternate_eq hp rs1 sup (by simp [oddReg_eq, even]) nw, flush, withR_clean hp.2.1, withR_clean hp.2.1,
    withAligned_pass al]

theorem execLdstuba_flush (ram : ReadableRam s (s.r rs1 + s.r rs2)) (nw : NoWatch s true true (s.r rs1 + s.r rs2)) :
    execLdstuba rd rs1 (.reg asi rs2) s =
      .next (advance (writeR (flushCache s c) rd ((s.byteAt (s.r rs1 + s.r rs2).toNat).setWidth 32))) := by
  rw [execLdstuba, withAlternate_eq hp rs1 sup rfl nw, flush]
  refine (withPhysRead_flushed ram c .byte _).trans ?_
  rw [show Size.byte.bytes = 1 from rfl, subword_byteAt, lowByte_setWidth]

theorem execSwapa_flush (ram : ReadableRam s (s.r rs1 + s.r rs2)) (nw : NoWatch s true true (s.r rs1 + s.r rs2))
    (al : (s.r rs1 + s.r rs2).toNat % 4 = 0) :
    execSwapa rd rs1 (.reg asi rs2) s = .next (advance (writeR (flushCache s c) rd (s.wordAt (s.r rs1 + s.r rs2).toNat))) := by
  rw [execSwapa, withAlternate_eq hp rs1 sup rfl nw, flush, withR_clean hp.2.1, withAligned_pass ((aligned_four_iff _).2 al)]
  refine (withPhysRead_flushed ram c .word _).trans ?_
  rw [show Size.word.bytes = 4 from rfl, subword_wordAt s al]

end

/-- Settles O40. -/
theorem alternateFlushResults : Obligations.AlternateFlushResults := by
  intro s rd rs1 asi rs2 c hp sup hasi a x flushes
  have flush := asiSpace_flush hasi
  have done {i : Instr} (h : exec i s = .next (advance (flushCache s c))) : flushes i :=
    ⟨_, h, flushesTo_flushCache s c, flushCache_ireg s c⟩
  refine ⟨fun nw => ⟨?_, ?_, fun al => ⟨?_, ?_⟩, fun al => ?_, fun even al => ?_⟩,
    fun nw => ⟨?_, fun al => ?_, fun al => ?_, fun even al => ?_⟩, fun ram nw => ⟨?_, fun al => ?_⟩⟩
  · exact done (loadAltOp_flush hp sup rd rs1 flush nw (sz := .byte) (aligned_one a) sextByte)
  · exact done (loadAltOp_flush hp sup rd rs1 flush nw (sz := .byte) (aligned_one a) lowByte)
  · exact done (loadAltOp_flush hp sup rd rs1 flush nw (sz := .half) ((aligned_two_iff a).2 al) sextHalf)
  · exact done (loadAltOp_flush hp sup rd rs1 flush nw (sz := .half) ((aligned_two_iff a).2 al) lowHalf)
  · exact done (loadAltOp_flush hp sup rd rs1 flush nw (sz := .word) ((aligned_four_iff a).2 al) id)
  · exact done (execLdda_flush hp sup rd rs1 flush even nw ((aligned_eight_iff a).2 al))
  · exact done (storeAltOp_flush hp sup rd rs1 flush nw (sz := .byte) (aligned_one a) lowByte)
  · exact done (storeAltOp_flush hp sup rd rs1 flush nw (sz := .half) ((aligned_two_iff a).2 al) lowHalf)
  · exact done (storeAltOp_flush hp sup rd rs1 flush nw (sz := .word) ((aligned_four_iff a).2 al) id)
  · exact done (execStda_flush hp sup rd rs1 flush even nw ((aligned_eight_iff a).2 al))
  · exact ⟨_, execLdstuba_flush hp sup rd rs1 flush ram nw, flushesTo_writeR hp.2.2 c rd _⟩
  · exact ⟨_, execSwapa_flush hp sup rd rs1 flush ram nw al, flushesTo_writeR hp.2.2 c rd _⟩

/-! ### Diagnostic access by ASI 12 to 15 -/

theorem asiSpace_diagnostic {asi : BitVec 8} {c : CacheId} {isTag : Bool}
    (h : (asi.extractLsb' 0 4, c, isTag) ∈
      ([(12, CacheId.icache, true), (13, CacheId.icache, false), (14, CacheId.dcache, true), (15, CacheId.dcache, false)] :
        List (BitVec 4 × CacheId × Bool))) : asiSpace asi = .diagnostic c isTag := by
  unfold asiSpace
  simp only [List.mem_cons, List.not_mem_nil, or_false, Prod.mk.injEq] at h
  rcases h with ⟨k, rfl, rfl⟩ | ⟨k, rfl, rfl⟩ | ⟨k, rfl, rfl⟩ | ⟨k, rfl, rfl⟩ <;> rw [k] <;> rfl

/-- The key that a diagnostic access at `a` uses. -/
def diagKey (c : CacheId) (isTag : Bool) (a : Word) : Nat := if isTag then diagTagKey c a else diagDataKey c a

/-- The tag, or data word, with key `k`. -/
def diagWord (s : State) (c : CacheId) (isTag : Bool) (k : Nat) : CacheWord := if isTag then (s.getCache c).tag k else (s.getCache c).word k

theorem diagOffset_toNat (c : CacheId) (a : Word) :
    (diagOffset c a).toNat = a.toNat % (match c with | .icache => 0x8000 | .dcache => 0x4000) := by
  cases c
  · exact Nat.and_two_pow_sub_one_eq_mod a.toNat 15
  · exact Nat.and_two_pow_sub_one_eq_mod a.toNat 14

/-- The split of an offset into way and line. -/
theorem diagKey_eq (c : CacheId) (isTag : Bool) (a : Word) :
    diagKey c isTag a =
      let off := a.toNat % (match c with | .icache => 0x8000 | .dcache => 0x4000)
      let line := off / 0x2000 * (match c with | .icache => 256 | .dcache => 512) + off % 0x2000 / (match c with | .icache => 32 | .dcache => 16)
      if isTag then line else off / 4 := by
  have off := diagOffset_toNat c a
  have part (k l : Nat) : ((diagOffset c a).extractLsb' k l).toNat = (diagOffset c a).toNat / 2 ^ k % 2 ^ l := by
    rw [BitVec.extractLsb'_toNat, Nat.shiftRight_eq_div_pow]
  unfold diagKey
  cases isTag
  · simp only [diagDataKey, dataKey, part, off, Bool.false_eq_true, if_false]
    cases c <;> simp only <;> omega
  · simp only [diagTagKey, tagKey, part, off, if_true]
    cases c <;> simp only [cacheSet, cacheSets, part, off] <;> omega

theorem diagRead_eq (s : State) (c : CacheId) (isTag : Bool) (a : Word) :
    diagRead s c isTag a = ((diagWord s c isTag (diagKey c isTag a)).val, s) := by
  cases isTag <;> rfl

theorem diagWord_diagWrite (s : State) (c : CacheId) (isTag : Bool) (a v : Word) (k : Nat) :
    diagWord (diagWrite s c isTag a v) c isTag k = if k = diagKey c isTag a then CacheWord.clean v else diagWord s c isTag k := by
  cases isTag <;> simp [diagWord, diagWrite, diagKey, Config.modelCaches]

/-- A diagnostic write changes tags, or data words, of one cache only. -/
theorem diagWrite_frame (s : State) (c : CacheId) (isTag : Bool) (a v : Word) :
    ∃ x, diagWrite s c isTag a v = s.setCache c x ∧
      x = if isTag then { s.getCache c with tags := x.tags } else { s.getCache c with data := x.data } := by
  cases isTag <;> exact ⟨_, rfl, rfl⟩

/-- From `s` to `t` the tags, or data words, of cache `c` become `new`, `r` registers may change, and pc and npc advance. -/
def DiagStores (s t : State) (c : CacheId) (isTag : Bool) (new : Nat → CacheWord) : Prop :=
  (∀ k, diagWord t c isTag k = new k) ∧
    t.getCache c =
      (if isTag then { s.getCache c with tags := (t.getCache c).tags } else { s.getCache c with data := (t.getCache c).data }) ∧
    t = { s.setCache c (t.getCache c) with ireg := t.ireg, pc := s.npc, npc := s.npc + 4 }

theorem setCache_setCache (s : State) (c : CacheId) (x y : Cache) : (s.setCache c x).setCache c y = s.setCache c y := by cases c <;> rfl

/-- Where only tags, or only data words, of one cache have changed, with registers written, and the instruction ends. -/
theorem diagStores_advance {s u : State} {c : CacheId} {isTag : Bool} {new : Nat → CacheWord} {x : Cache} {i : Vector RegWord 136}
    (hu : u = { s.setCache c x with ireg := i })
    (hx : x = if isTag then { s.getCache c with tags := x.tags } else { s.getCache c with data := x.data })
    (hn : ∀ k, diagWord u c isTag k = new k) : DiagStores s (advance u) c isTag new := by
  have cache : u.getCache c = x := by
    subst hu
    cases c <;> rfl
  have adv : (advance u).getCache c = x := by
    rw [← cache]
    cases c <;> rfl
  refine ⟨fun k => Eq.trans ?_ (hn k), ?_, ?_⟩
  · unfold diagWord
    rw [adv, cache]
  · rw [adv]
    exact hx
  · rw [adv, hu]
    cases c <;> rfl

section
variable {s : State} (hp : Plain s) (sup : s.psr.s = true) (rd rs1 : RegNum) {asi : BitVec 8} {rs2 : RegNum} {c : CacheId} {isTag : Bool}
  (diag : asiSpace asi = .diagnostic c isTag)
include hp sup diag

theorem execLda_diagnostic (nw : NoWatch s true false (s.r rs1 + s.r rs2)) (al : (s.r rs1 + s.r rs2).toNat % 4 = 0) :
    exec (.lda rd rs1 (.reg asi rs2)) s =
      .next (advance (writeR s rd (diagWord s c isTag (diagKey c isTag (s.r rs1 + s.r rs2))).val)) := by
  change loadAltOp s rd rs1 (.reg asi rs2) .word id = _
  rw [loadAltOp, withAlternate_eq hp rs1 sup rfl nw, diag, show Size.word.bytes = 4 from rfl,
    withAligned_pass ((aligned_four_iff _).2 al)]
  simp only [if_true, diagRead_eq]

theorem execLdda_diagnostic (even : rd.toNat % 2 = 0) (nw : NoWatch s true false (s.r rs1 + s.r rs2))
    (al : (s.r rs1 + s.r rs2).toNat % 8 = 0) :
    exec (.ldda rd rs1 (.reg asi rs2)) s =
      .next (advance (writePair s rd (diagWord s c isTag (diagKey c isTag (s.r rs1 + s.r rs2))).val
        (diagWord s c isTag (diagKey c isTag (s.r rs1 + s.r rs2 + 4))).val)) := by
  change execLdda rd rs1 (.reg asi rs2) s = _
  rw [execLdda, withAlternate_eq hp rs1 sup (by simp [oddReg_eq, even]) nw, diag, withAligned_pass ((aligned_eight_iff _).2 al)]
  simp only [diagRead_eq]

theorem execSta_diagnostic (nw : NoWatch s false true (s.r rs1 + s.r rs2)) (al : (s.r rs1 + s.r rs2).toNat % 4 = 0) :
    exec (.sta rd rs1 (.reg asi rs2)) s = .next (advance (diagWrite s c isTag (s.r rs1 + s.r rs2) (s.r rd))) := by
  change storeAltOp s rd rs1 (.reg asi rs2) .word id = _
  rw [storeAltOp, withAlternate_eq hp rs1 sup rfl nw, diag, withR_clean hp.2.1, show Size.word.bytes = 4 from rfl,
    withAligned_pass ((aligned_four_iff _).2 al)]
  simp only [if_true]

theorem execStda_diagnostic (even : rd.toNat % 2 = 0) (nw : NoWatch s false true (s.r rs1 + s.r rs2))
    (al : (s.r rs1 + s.r rs2).toNat % 8 = 0) :
    exec (.stda rd rs1 (.reg asi rs2)) s =
      .next (advance (diagWrite (diagWrite s c isTag (s.r rs1 + s.r rs2) (s.r rd)) c isTag (s.r rs1 + s.r rs2 + 4) (s.r (rd + 1)))) := by
  change execStda rd rs1 (.reg asi rs2) s = _
  rw [execStda, withAlternate_eq hp rs1 sup (by simp [oddReg_eq, even]) nw, diag, withR_clean hp.2.1, withR_clean hp.2.1,
    withAligned_pass ((aligned_eight_iff _).2 al)]

theorem execSwapa_diagnostic (nw : NoWatch s true true (s.r rs1 + s.r rs2)) (al : (s.r rs1 + s.r rs2).toNat % 4 = 0) :
    exec (.swapa rd rs1 (.reg asi rs2)) s =
      .next (advance (writeR (diagWrite s c isTag (s.r rs1 + s.r rs2) (s.r rd)) rd
        (diagWord s c isTag (diagKey c isTag (s.r rs1 + s.r rs2))).val)) := by
  change execSwapa rd rs1 (.reg asi rs2) s = _
  rw [execSwapa, withAlternate_eq hp rs1 sup rfl nw, diag, withR_clean hp.2.1, withAligned_pass ((aligned_four_iff _).2 al)]
  simp only [diagRead_eq]

end

/-- Settles O41. -/
theorem alternateDiagnosticResults : Obligations.AlternateDiagnosticResults := by
  intro s rd rs1 asi rs2 c isTag hp sup hasi a x key at' stores v v2 one two al
  have diag := asiSpace_diagnostic hasi
  have inj := hp.2.2
  have keyed (b : Word) : key b = diagKey c isTag b := (diagKey_eq c isTag b).symm
  have one_eq (k : Nat) : diagWord (diagWrite s c isTag a (s.r rd)) c isTag k = one k := by
    rw [diagWord_diagWrite, ← keyed]
    rfl
  obtain ⟨y, wrote, only⟩ := diagWrite_frame s c isTag a (s.r rd)
  refine ⟨fun nw => ⟨?_, fun even al8 => ?_⟩, fun nw => ⟨?_, fun even al8 => ?_⟩, fun nw => ?_⟩
  · rw [execLda_diagnostic hp sup rd rs1 diag nw al, keyed]
    exact completes_writeR inj rd _
  · rw [execLdda_diagnostic hp sup rd rs1 diag even nw al8, keyed, keyed]
    exact completesPair_writePair inj even _ _
  · refine ⟨_, execSta_diagnostic hp sup rd rs1 diag nw al, ?_, ?_⟩
    · exact diagStores_advance (i := s.ireg) (wrote.trans (by cases c <;> rfl)) only one_eq
    · rw [advance_ireg, wrote]
      cases c <;> rfl
  · obtain ⟨z, wrote2, only2⟩ := diagWrite_frame (diagWrite s c isTag a (s.r rd)) c isTag (a + 4) (s.r (rd + 1))
    rw [wrote, setCache_setCache] at wrote2
    refine ⟨_, execStda_diagnostic hp sup rd rs1 diag even nw al8, ?_, ?_⟩
    · refine diagStores_advance (i := s.ireg) (x := z) ?_ ?_ fun k => ?_
      · rw [wrote]
        exact wrote2.trans (by cases c <;> rfl)
      · rw [wrote, getCache_setCache] at only2
        cases isTag
        · rw [only2, only]
          rfl
        · rw [only2, only]
          rfl
      · rw [diagWord_diagWrite, one_eq, ← keyed]
    · rw [advance_ireg, wrote, wrote2]
      cases c <;> rfl
  · obtain ⟨i, frame⟩ := writeR_frame (diagWrite s c isTag a (s.r rd)) rd (diagWord s c isTag (diagKey c isTag a)).val
    have inj' : NoInjection (diagWrite s c isTag a (s.r rd)) := by
      rw [wrote]
      cases c <;> exact inj
    have regs := writeR_spec inj' rd (diagWord s c isTag (diagKey c isTag a)).val
    refine ⟨_, execSwapa_diagnostic hp sup rd rs1 diag nw al, ?_, ?_⟩
    · refine diagStores_advance (i := i) (x := y) ?_ only fun k => ?_
      · rw [frame, wrote]
      · rw [← one_eq, frame]
        cases c <;> rfl
    · rw [keyed]
      rw [wrote] at regs ⊢
      cases c <;> exact regs

end Sys2Proof.Proofs

/-! PROOFS. Accesses that trap: misaligned, illegal, write-protected, or answered by nothing; the shapes of the floating-point accesses. -/

namespace Sys2Proof.Proofs

open Sys2Proof Sys2Proof.Machine

/-! ### Floating-point loads and stores, with the FPU on and the checks passed -/

theorem checked_fpChecks {s : State} (hp : Plain s) (ef : s.psr.ef = true) (k : Result) : checked s (fpChecks s) k = k := by
  rw [fpChecks, ef, Bool.not_true, checked_skip, checked_nil hp.1]

section
variable {s : State} (hp : Plain s) (ef : s.psr.ef = true) (rd rs1 : RegNum) (op2 : RegImm)
include hp ef

theorem execLdf_eq (nw : NoWatch s true false (ea s rs1 op2)) :
    execLdf rd rs1 op2 s = withAligned s (ea s rs1 op2) 4
      (withLoad s .normal (ea s rs1 op2) .word fun s2 v => .next (advance (writeF s2 rd v))) := by
  rw [execLdf, checked_fpChecks hp ef, withAccess_clean hp.2.1, withWatch_pass nw]

theorem execLdfsr_eq (nw : NoWatch s true false (ea s rs1 op2)) :
    execLdfsr rs1 op2 s = withAligned s (ea s rs1 op2) 4
      (withLoad s .normal (ea s rs1 op2) .word fun s2 v => .next (advance { s2 with fsr := fsrLoaded s2.fsr v })) := by
  rw [execLdfsr, checked_fpChecks hp ef, withAccess_clean hp.2.1, withWatch_pass nw]

theorem execLddf_eq (nw : NoWatch s true false (ea s rs1 op2)) :
    execLddf rd rs1 op2 s = withAligned s (ea s rs1 op2) 8
      (if oddReg rd then raiseFp s fttInvalidRegister
        else withLoadPair s .normal (ea s rs1 op2) fun s2 hi lo => .next (advance (writeFPair s2 rd hi lo))) := by
  rw [execLddf, checked_fpChecks hp ef, withAccess_clean hp.2.1, withWatch_pass nw]

theorem execStfsr_eq (nw : NoWatch s false true (ea s rs1 op2)) :
    execStfsr rs1 op2 s = withAligned s (ea s rs1 op2) 4
      (withStore s (ea s rs1 op2) .word (fsrWord s.fsr) fun s2 => .next (advance { s2 with fsr := { s2.fsr with ftt := 0 } })) := by
  rw [execStfsr, checked_fpChecks hp ef, withAccess_clean hp.2.1, withWatch_pass nw]

theorem execStdf_odd (odd : oddReg rd = true) (nw : NoWatch s false true (ea s rs1 op2)) :
    execStdf rd rs1 op2 s = withAligned s (ea s rs1 op2) 8 (raiseFp s fttInvalidRegister) := by
  rw [execStdf, checked_fpChecks hp ef, withAccess_clean hp.2.1, withWatch_pass nw, if_pos odd]

variable (fc : FregsClean s)
include fc

theorem execStf_eq (nw : NoWatch s false true (ea s rs1 op2)) :
    execStf rd rs1 op2 s = withAligned s (ea s rs1 op2) 4
      (withStore s (ea s rs1 op2) .word (s.f rd) fun s3 => .next (advance s3)) := by
  rw [execStf, checked_fpChecks hp ef, withAccess_clean hp.2.1, withWatch_pass nw, withF_clean fc]

theorem execStdf_even (even : oddReg rd = false) (nw : NoWatch s false true (ea s rs1 op2)) :
    execStdf rd rs1 op2 s = withAligned s (ea s rs1 op2) 8
      (withStorePair s (ea s rs1 op2) (s.f rd) (s.f (rd + 1)) fun s4 => .next (advance s4)) := by
  rw [execStdf, checked_fpChecks hp ef, withAccess_clean hp.2.1, withWatch_pass nw, if_neg (by simp [even]), withF_clean fc,
    withF_clean fc]

end

/-! ### Misaligned addresses -/

/-- An access that only the alignment of its address can stop traps where it is misaligned. -/
theorem traps_of_misaligned {s : State} {a : Word} {n : Nat} {o k : Result} (inj : NoInjection s) (can : CanTrap s ttNotAligned)
    (misaligned : ¬ aligned a n = true) (shape : o = withAligned s a n k) : Traps o s ttNotAligned := by
  rw [shape, withAligned, if_neg misaligned]
  exact traps_raise inj can

section
variable {s : State} (hp : Plain s) (can : CanTrap s ttNotAligned) (rd rs1 : RegNum)
include hp can

theorem loads_misaligned (op2 : RegImm) (nw : NoWatch s true false (ea s rs1 op2)) (sz : Size) (ext : Word → Word)
    (misaligned : ¬ aligned (ea s rs1 op2) sz.bytes = true) : Traps (loadOp s rd rs1 op2 sz ext) s ttNotAligned :=
  traps_of_misaligned hp.2.2 can misaligned (loadOp_eq hp rd rs1 op2 nw sz ext)

theorem stores_misaligned (op2 : RegImm) (nw : NoWatch s false true (ea s rs1 op2)) (sz : Size) (low : Word → Word)
    (misaligned : ¬ aligned (ea s rs1 op2) sz.bytes = true) : Traps (storeOp s rd rs1 op2 sz low) s ttNotAligned :=
  traps_of_misaligned hp.2.2 can misaligned (storeOp_eq hp rd rs1 op2 nw sz low)

theorem stdf_misaligned (ef : s.psr.ef = true) (fc : FregsClean s) (op2 : RegImm) (nw : NoWatch s false true (ea s rs1 op2))
    (misaligned : ¬ aligned (ea s rs1 op2) 8 = true) : Traps (execStdf rd rs1 op2 s) s ttNotAligned := by
  by_cases odd : oddReg rd = true
  · exact traps_of_misaligned hp.2.2 can misaligned (execStdf_odd hp ef rd rs1 op2 odd nw)
  · exact traps_of_misaligned hp.2.2 can misaligned (execStdf_even hp ef rd rs1 op2 fc (Bool.eq_false_iff.2 odd) nw)

variable (sup : s.psr.s = true) {asi : BitVec 8} {rs2 : RegNum}
include sup

theorem loadAlts_misaligned (nw : NoWatch s true false (s.r rs1 + s.r rs2)) (sz : Size) (ext : Word → Word)
    (misaligned : ¬ aligned (s.r rs1 + s.r rs2) sz.bytes = true) :
    Traps (loadAltOp s rd rs1 (.reg asi rs2) sz ext) s ttNotAligned := by
  rw [loadAltOp, withAlternate_eq hp rs1 sup rfl nw]
  exact traps_of_misaligned hp.2.2 can misaligned rfl

theorem ldda_misaligned (even : rd.toNat % 2 = 0) (nw : NoWatch s true false (s.r rs1 + s.r rs2))
    (misaligned : ¬ aligned (s.r rs1 + s.r rs2) 8 = true) : Traps (execLdda rd rs1 (.reg asi rs2) s) s ttNotAligned := by
  rw [execLdda, withAlternate_eq hp rs1 sup (by simp [oddReg_eq, even]) nw]
  exact traps_of_misaligned hp.2.2 can misaligned rfl

theorem storeAlts_misaligned (nw : NoWatch s false true (s.r rs1 + s.r rs2)) (sz : Size) (low : Word → Word)
    (misaligned : ¬ aligned (s.r rs1 + s.r rs2) sz.bytes = true) :
    Traps (storeAltOp s rd rs1 (.reg asi rs2) sz low) s ttNotAligned := by
  rw [storeAltOp, withAlternate_eq hp rs1 sup rfl nw, withR_clean hp.2.1]
  exact traps_of_misaligned hp.2.2 can misaligned rfl

theorem stda_misaligned (even : rd.toNat % 2 = 0) (nw : NoWatch s false true (s.r rs1 + s.r rs2))
    (misaligned : ¬ aligned (s.r rs1 + s.r rs2) 8 = true) : Traps (execStda rd rs1 (.reg asi rs2) s) s ttNotAligned := by
  rw [execStda, withAlternate_eq hp rs1 sup (by simp [oddReg_eq, even]) nw, withR_clean hp.2.1, withR_clean hp.2.1]
  exact traps_of_misaligned hp.2.2 can misaligned rfl

theorem swapa_misaligned (nw : NoWatch s true true (s.r rs1 + s.r rs2))
    (misaligned : ¬ aligned (s.r rs1 + s.r rs2) 4 = true) : Traps (execSwapa rd rs1 (.reg asi rs2) s) s ttNotAligned := by
  rw [execSwapa, withAlternate_eq hp rs1 sup rfl nw, withR_clean hp.2.1]
  exact traps_of_misaligned hp.2.2 can misaligned rfl

end

/-- Settles O42. -/
theorem misalignedTraps : Obligations.MisalignedTraps := by
  intro s rd rs1 op2 hp can a traps
  have inj := hp.2.2
  have two (b : Word) : b.toNat % 2 ≠ 0 → ¬ aligned b 2 = true := mt (aligned_two_iff b).1
  have four (b : Word) : b.toNat % 4 ≠ 0 → ¬ aligned b 4 = true := mt (aligned_four_iff b).1
  have eight (b : Word) : b.toNat % 8 ≠ 0 → ¬ aligned b 8 = true := mt (aligned_eight_iff b).1
  refine ⟨fun nw => ⟨fun h2 => ?_, fun h4 => ?_, fun h8 => ?_⟩, fun nw => ⟨fun h2 => ?_, fun h4 => ?_, fun h8 => ?_⟩,
    fun nw h4 => ?_, ?_⟩
  · exact ⟨loads_misaligned hp can rd rs1 op2 nw .half sextHalf (two a h2), loads_misaligned hp can rd rs1 op2 nw .half lowHalf (two a h2)⟩
  · exact ⟨loads_misaligned hp can rd rs1 op2 nw .word id (four a h4), fun ef =>
      ⟨traps_of_misaligned inj can (four a h4) (execLdf_eq hp ef rd rs1 op2 nw),
        traps_of_misaligned inj can (four a h4) (execLdfsr_eq hp ef rs1 op2 nw)⟩⟩
  · exact ⟨fun even => traps_of_misaligned inj can (eight a h8) (execLdd_eq hp rd rs1 op2 even nw),
      fun ef => traps_of_misaligned inj can (eight a h8) (execLddf_eq hp ef rd rs1 op2 nw)⟩
  · exact stores_misaligned hp can rd rs1 op2 nw .half lowHalf (two a h2)
  · exact ⟨stores_misaligned hp can rd rs1 op2 nw .word id (four a h4), fun ef fc =>
      ⟨traps_of_misaligned inj can (four a h4) (execStf_eq hp ef rd rs1 op2 fc nw),
        traps_of_misaligned inj can (four a h4) (execStfsr_eq hp ef rs1 op2 nw)⟩⟩
  · exact ⟨fun even => traps_of_misaligned inj can (eight a h8) (execStd_eq hp rd rs1 op2 even nw),
      fun ef fc => stdf_misaligned hp can rd rs1 ef fc op2 nw (eight a h8)⟩
  · exact traps_of_misaligned inj can (four a h4) (execSwap_eq hp rd rs1 op2 nw)
  · intro asi rs2 hop sup x
    subst hop
    refine ⟨fun nw => ⟨fun h2 => ?_, fun h4 => ?_, fun h8 even => ?_⟩, fun nw => ⟨fun h2 => ?_, fun h4 => ?_, fun h8 even => ?_⟩,
      fun nw h4 => ?_⟩
    · exact ⟨loadAlts_misaligned hp can rd rs1 sup nw .half sextHalf (two a h2), loadAlts_misaligned hp can rd rs1 sup nw .half lowHalf (two a h2)⟩
    · exact loadAlts_misaligned hp can rd rs1 sup nw .word id (four a h4)
    · exact ldda_misaligned hp can rd rs1 sup even nw (eight a h8)
    · exact storeAlts_misaligned hp can rd rs1 sup nw .half lowHalf (two a h2)
    · exact storeAlts_misaligned hp can rd rs1 sup nw .word id (four a h4)
    · exact stda_misaligned hp can rd rs1 sup even nw (eight a h8)
    · exact swapa_misaligned hp can rd rs1 sup nw (four a h4)

/-! ### Illegal forms -/

/-- An alternate-space form with i = 1, or with an odd pair, is illegal in supervisor mode. -/
theorem withAlternate_illegal {s : State} (sup : s.psr.s = true) {odd : Bool} {alt : AltArg} (illegal : (AltArg.illegal alt || odd) = true)
    (rs1 : RegNum) (l w : Bool) (k : State → AsiSpace → Word → Result) : withAlternate s odd rs1 alt l w k = raise s ttIllegal := by
  unfold withAlternate
  rw [sup, illegal, Bool.not_true, checked_skip, checked_trap]

/-- Settles O43. -/
theorem illegalMemoryForms : Obligations.IllegalMemoryForms := by
  intro s rd rs1 inj can traps
  have trap {o : Result} (h : o = raise s ttIllegal) : Traps o s ttIllegal := h ▸ traps_raise inj can
  refine ⟨fun odd => ?_, fun sup c => ?_⟩
  · have odd' : oddReg rd = true := by simp [oddReg_eq, odd]
    refine ⟨fun op2 => ⟨trap ?_, trap ?_⟩, fun sup x => ⟨trap ?_, trap ?_⟩⟩
    · change execLdd rd rs1 op2 s = _
      rw [execLdd, odd', checked_trap]
    · change execStd rd rs1 op2 s = _
      rw [execStd, odd', checked_trap]
    · change execLdda rd rs1 x s = _
      exact withAlternate_illegal sup (by simp [odd']) rs1 _ _ _
    · change execStda rd rs1 x s = _
      exact withAlternate_illegal sup (by simp [odd']) rs1 _ _ _
  · have load (sz : Size) (ext : Word → Word) : Traps (loadAltOp s rd rs1 (.imm c) sz ext) s ttIllegal :=
      trap (withAlternate_illegal sup rfl rs1 true false _)
    have store (sz : Size) (low : Word → Word) : Traps (storeAltOp s rd rs1 (.imm c) sz low) s ttIllegal :=
      trap (withAlternate_illegal sup rfl rs1 false true _)
    have ldda : Traps (execLdda rd rs1 (.imm c) s) s ttIllegal := trap (withAlternate_illegal sup rfl rs1 true false _)
    have stda : Traps (execStda rd rs1 (.imm c) s) s ttIllegal := trap (withAlternate_illegal sup rfl rs1 false true _)
    have ldstuba : Traps (execLdstuba rd rs1 (.imm c) s) s ttIllegal := trap (withAlternate_illegal sup rfl rs1 true true _)
    have swapa : Traps (execSwapa rd rs1 (.imm c) s) s ttIllegal := trap (withAlternate_illegal sup rfl rs1 true true _)
    exact ⟨load .byte sextByte, load .half sextHalf, load .byte lowByte, load .half lowHalf, load .word id, ldda,
      store .byte lowByte, store .half lowHalf, store .word id, stda, ldstuba, swapa⟩

/-! ### Transfers that the bus answers with an error -/

section
variable {s : State} (hp : Plain s) (rd rs1 : RegNum) (op2 : RegImm) {tt : BitVec 8} {E : Size → State} {P : Result → Prop}
  (fails : ∀ sz, P (raise (E sz) tt))
include hp fails

/-- Where a write of any width at the address is answered with an error, every store ends in that error's trap. -/
theorem stores_fail (write : ∀ sz v k, withStore s (ea s rs1 op2) sz v k = raise (E sz) tt) (nw : NoWatch s false true (ea s rs1 op2)) :
    P (exec (.stb rd rs1 op2) s) ∧ ((ea s rs1 op2).toNat % 2 = 0 → P (exec (.sth rd rs1 op2) s)) ∧
      ((ea s rs1 op2).toNat % 4 = 0 → P (exec (.st rd rs1 op2) s)) ∧
      (rd.toNat % 2 = 0 → (ea s rs1 op2).toNat % 8 = 0 → P (exec (.std rd rs1 op2) s)) ∧
      (FpPlain s →
        ((ea s rs1 op2).toNat % 4 = 0 → P (exec (.stf rd rs1 op2) s) ∧ P (exec (.stfsr rs1 op2) s)) ∧
        (rd.toNat % 2 = 0 → (ea s rs1 op2).toNat % 8 = 0 → P (exec (.stdf rd rs1 op2) s))) := by
  have store (sz : Size) (low : Word → Word) (al : aligned (ea s rs1 op2) sz.bytes = true) : P (storeOp s rd rs1 op2 sz low) := by
    rw [storeOp_eq hp rd rs1 op2 nw, withAligned_pass al, write]
    exact fails sz
  refine ⟨store .byte lowByte (aligned_one _), fun al => store .half lowHalf ((aligned_two_iff _).2 al),
    fun al => store .word id ((aligned_four_iff _).2 al), fun even al => ?_, fun fp => ⟨fun al => ⟨?_, ?_⟩, fun even al => ?_⟩⟩
  · change P (execStd rd rs1 op2 s)
    rw [execStd_eq hp rd rs1 op2 even nw, withAligned_pass ((aligned_eight_iff _).2 al), withStorePair, write]
    exact fails .dword
  · change P (execStf rd rs1 op2 s)
    rw [execStf_eq hp fp.2.2 rd rs1 op2 fp.2.1 nw, withAligned_pass ((aligned_four_iff _).2 al), write]
    exact fails .word
  · change P (execStfsr rs1 op2 s)
    rw [execStfsr_eq hp fp.2.2 rs1 op2 nw, withAligned_pass ((aligned_four_iff _).2 al), write]
    exact fails .word
  · change P (execStdf rd rs1 op2 s)
    rw [execStdf_even hp fp.2.2 rd rs1 op2 fp.2.1 (by simp [oddReg_eq, even]) nw, withAligned_pass ((aligned_eight_iff _).2 al),
      withStorePair, write]
    exact fails .dword

/-- Where a read of any width at the address is answered with an error, every load ends in that error's trap. -/
theorem loads_fail (read : ∀ sz k, withLoad s .normal (ea s rs1 op2) sz k = raise (E sz) tt) (nw : NoWatch s true false (ea s rs1 op2))
    (nwAtomic : NoWatch s true true (ea s rs1 op2)) :
    P (exec (.ldsb rd rs1 op2) s) ∧ P (exec (.ldub rd rs1 op2) s) ∧ P (exec (.ldstub rd rs1 op2) s) ∧
      ((ea s rs1 op2).toNat % 2 = 0 → P (exec (.ldsh rd rs1 op2) s) ∧ P (exec (.lduh rd rs1 op2) s)) ∧
      ((ea s rs1 op2).toNat % 4 = 0 → P (exec (.ld rd rs1 op2) s) ∧ P (exec (.swap rd rs1 op2) s)) ∧
      (rd.toNat % 2 = 0 → (ea s rs1 op2).toNat % 8 = 0 → P (exec (.ldd rd rs1 op2) s)) ∧
      (FpPlain s →
        ((ea s rs1 op2).toNat % 4 = 0 → P (exec (.ldf rd rs1 op2) s) ∧ P (exec (.ldfsr rs1 op2) s)) ∧
        (rd.toNat % 2 = 0 → (ea s rs1 op2).toNat % 8 = 0 → P (exec (.lddf rd rs1 op2) s))) := by
  have load (sz : Size) (ext : Word → Word) (al : aligned (ea s rs1 op2) sz.bytes = true) : P (loadOp s rd rs1 op2 sz ext) := by
    rw [loadOp_eq hp rd rs1 op2 nw, withAligned_pass al, read]
    exact fails sz
  refine ⟨load .byte sextByte (aligned_one _), load .byte lowByte (aligned_one _), ?_,
    fun al => ⟨load .half sextHalf ((aligned_two_iff _).2 al), load .half lowHalf ((aligned_two_iff _).2 al)⟩,
    fun al => ⟨load .word id ((aligned_four_iff _).2 al), ?_⟩, fun even al => ?_, fun fp => ⟨fun al => ⟨?_, ?_⟩, fun even al => ?_⟩⟩
  · change P (execLdstub rd rs1 op2 s)
    rw [execLdstub_eq hp rd rs1 op2 nwAtomic, read]
    exact fails .byte
  · change P (execSwap rd rs1 op2 s)
    rw [execSwap_eq hp rd rs1 op2 nwAtomic, withAligned_pass ((aligned_four_iff _).2 al), read]
    exact fails .word
  · change P (execLdd rd rs1 op2 s)
    rw [execLdd_eq hp rd rs1 op2 even nw, withAligned_pass ((aligned_eight_iff _).2 al), withLoadPair, read]
    exact fails .dword
  · change P (execLdf rd rs1 op2 s)
    rw [execLdf_eq hp fp.2.2 rd rs1 op2 nw, withAligned_pass ((aligned_four_iff _).2 al), read]
    exact fails .word
  · change P (execLdfsr rs1 op2 s)
    rw [execLdfsr_eq hp fp.2.2 rs1 op2 nw, withAligned_pass ((aligned_four_iff _).2 al), read]
    exact fails .word
  · change P (execLddf rd rs1 op2 s)
    rw [execLddf_eq hp fp.2.2 rd rs1 op2 nw, withAligned_pass ((aligned_eight_iff _).2 al), if_neg (by simp [oddReg_eq, even]),
      withLoadPair, read]
    exact fails .dword

end

/-- Latching a bus error changes device registers only. -/
theorem latchBusError_dev (s : State) (m : Master) (r : Bool) (a : Word) (n : Nat) :
    ∃ d : Dev, latchBusError s m r a n = { s with dev := d } := by
  unfold latchBusError
  split
  · exact ⟨s.dev, rfl⟩
  · exact ⟨_, rfl⟩

/-- A trap after a latched bus error keeps the registers and memory up to its entry. -/
theorem raise_latched {s : State} (inj : NoInjection s) {tt : BitVec 8} (can : CanTrap s tt) (m : Master) (r : Bool) (a : Word) (n : Nat) :
    ∃ t, raise (latchBusError s m r a n) tt = .next t ∧ EntersTrap (latchBusError s m r a n) t tt ∧
      (latchBusError s m r a n).cpu = s.cpu ∧ (latchBusError s m r a n).mem = s.mem ∧ (latchBusError s m r a n).memFlip = s.memFlip := by
  obtain ⟨d, hd⟩ := latchBusError_dev s m r a n
  rw [hd]
  exact ⟨_, raise_taken (s := { s with dev := d }) can, enterTrap_spec (s := { s with dev := d }) inj tt, rfl, rfl, rfl⟩

theorem busWrite_error {s : State} {a : Word} {sz : Size} {v : Word} (idle : DsuIdle s a) (h : areaWrite s a sz v = .err s) :
    busWrite s .iu a sz v = .err (latchBusError s .iu false a sz.bytes) := by
  simp only [busWrite, h, dsuSeesBus_idle (latchBusError_idle idle _ _ _)]

theorem busRead_error {s : State} {a : Word} {f : Bool} {sz : Size} (idle : DsuIdle s a) (h : areaRead s f a sz = .err s) :
    busRead s .iu f a sz = .err (latchBusError s .iu true a sz.bytes) := by
  simp only [busRead, h, dsuSeesBus_idle (latchBusError_idle idle _ _ _)]

theorem withStore_error {s : State} {a : Word} {sz : Size} {v : Word} (idle : DsuIdle s a) (h : areaWrite s a sz v = .err s)
    (k : State → Result) : withStore s a sz v k = raise (latchBusError s .iu false a sz.bytes) ttStoreError := by
  simp only [withStore, dataWrite, busWrite_error idle h]

theorem withLoad_error {s : State} {a : Word} {sz : Size} (idle : DsuIdle s a) (h : areaRead s false a sz = .err s)
    (uncached : (cacheable a && cacheOn s.dev .dcache) = false) (k : State → Word → Result) :
    withLoad s .normal a sz k = raise (latchBusError s .iu true a sz.bytes) ttDataAccess := by
  simp only [withLoad, dataRead, uncached, Bool.false_eq_true, if_false, busRead_error idle h]

theorem areaOf_ram {a : Word} (low : 0x40000000 ≤ a.toNat) (high : a.toNat < 0x80000000) : areaOf a = .ram := by
  unfold areaOf
  rw [if_neg (by bv_omega), if_neg (by bv_omega), if_pos (by bv_omega)]

/-- A unit that forbids the address in the sense of 20_memory R236. -/
theorem wprProtects_of {w a : Word} (on : w.getLsbD 31 = true)
    (range : (a.extractLsb' 15 15 ^^^ w.extractLsb' 15 15) &&& w.extractLsb' 0 15 = 0 ↔ w.getLsbD 30 = true) : wprProtects w a = true := by
  simp only [wprProtects, bit, on, Bool.true_and, range]
  cases w.getLsbD 30 <;> rfl

/-- Settles O44. -/
theorem writeProtectionTraps : Obligations.WriteProtectionTraps := by
  intro s rd rs1 op2 hp can a forbids low high idle forbidden traps
  have inj := hp.2.2
  have protected' : writeProtected s.dev a = true := by
    rcases forbidden with ⟨on, range⟩ | ⟨on, range⟩
    · simp [writeProtected, wprProtects_of on range]
    · simp [writeProtected, wprProtects_of on range]
  have write (sz : Size) (v : Word) (k : State → Result) :
      withStore s a sz v k = raise (latchBusError s .iu false a sz.bytes) ttStoreError :=
    withStore_error idle (by simp only [areaWrite, areaOf_ram low high, ramWrite, protected', if_true]) k
  have fails (sz : Size) : ∃ u t, raise (latchBusError s .iu false a sz.bytes) ttStoreError = .next t ∧ EntersTrap u t ttStoreError ∧
      u.cpu = s.cpu ∧ u.mem = s.mem := by
    obtain ⟨t, taken, enters, cpu, mem, -⟩ := raise_latched inj can .iu false a sz.bytes
    exact ⟨_, t, taken, enters, cpu, mem⟩
  refine ⟨fun nw => ?_, fun nw ram => ⟨?_, fun al => ?_⟩⟩
  · exact stores_fail (P := fun o => ∃ u t, o = .next t ∧ EntersTrap u t ttStoreError ∧ u.cpu = s.cpu ∧ u.mem = s.mem)
      hp rd rs1 op2 fails write nw
  · change ∃ u t, execLdstub rd rs1 op2 s = _ ∧ _
    rw [execLdstub_eq hp rd rs1 op2 nw, withLoad_byte ram, write]
    exact fails .byte
  · change ∃ u t, execSwap rd rs1 op2 s = _ ∧ _
    rw [execSwap_eq hp rd rs1 op2 nw, withAligned_pass ((aligned_four_iff _).2 al), withLoad_word ram _ al, write]
    exact fails .word

/-! ### Addresses where nothing answers -/

/-- Nothing is at `a`, or external memory answers with BEXCN (20_memory R211, R220, R221). -/
def Unanswered (s : State) (a : Word) : Prop :=
  areaOf a = .unassigned ∨ (busException s = true ∧ (areaOf a = .prom ∨ areaOf a = .io ∨ areaOf a = .ram))

theorem areaOf_unassigned {a : Word}
    (h : (0x80000200 ≤ a.toNat ∧ a.toNat < 0x90000000) ∨ (0xA0000000 ≤ a.toNat ∧ a.toNat < 0xC0000000)) : areaOf a = .unassigned := by
  unfold areaOf
  rw [if_neg (by bv_omega), if_neg (by bv_omega), if_neg (by bv_omega), if_neg (by bv_omega)]
  rcases h with ⟨low, high⟩ | ⟨low, high⟩
  · rw [if_pos (by bv_omega)]
  · rw [if_neg (by bv_omega), if_neg (by bv_omega), if_pos (by bv_omega)]

theorem areaOf_external {a : Word} (h : a.toNat < 0x80000000) : areaOf a = .prom ∨ areaOf a = .io ∨ areaOf a = .ram := by
  unfold areaOf
  split
  · exact .inl rfl
  · split
    · exact .inr (.inl rfl)
    · rw [if_pos (by bv_omega)]
      exact .inr (.inr rfl)

theorem areaRead_unanswered {s : State} {a : Word} (h : Unanswered s a) (f : Bool) (sz : Size) : areaRead s f a sz = .err s := by
  rcases h with at' | ⟨bexc, at' | at' | at'⟩
  · simp only [areaRead, at']
  · simp only [areaRead, at', bexc, if_true]
  · simp only [areaRead, at', bexc, Bool.or_true, if_true]
  · simp only [areaRead, at', bexc, if_true]
    cases ramBank s.dev a <;> rfl

theorem areaWrite_unanswered {s : State} {a : Word} (h : Unanswered s a) (sz : Size) (v : Word) : areaWrite s a sz v = .err s := by
  rcases h with at' | ⟨bexc, at' | at' | at'⟩
  · simp only [areaWrite, at']
  · simp only [areaWrite, at', bexc, Bool.or_true, if_true]
  · simp only [areaWrite, at', bexc, Bool.or_true, if_true]
  · simp only [areaWrite, at', ramWrite, bexc, if_true]
    cases writeProtected s.dev a
    · cases ramBank s.dev a <;> rfl
    · rfl

theorem ahbStat_bits (w : Word) (r : Bool) (h : BitVec 3) :
    ((w &&& 0xFFFFFE00#32) ||| (1#1 ++ b1 r ++ 0#4 ++ h).setWidth 32).getLsbD 8 = true ∧
      ((w &&& 0xFFFFFE00#32) ||| (1#1 ++ b1 r ++ 0#4 ++ h).setWidth 32).getLsbD 7 = r := by
  rw [BitVec.getLsbD_or, BitVec.getLsbD_or, BitVec.getLsbD_setWidth, BitVec.getLsbD_setWidth, BitVec.getLsbD_append,
    BitVec.getLsbD_append, BitVec.getLsbD_append, BitVec.getLsbD_append, BitVec.getLsbD_append]
  cases r <;> simp [b1]

/-- What the AHB registers hold after the first error (20_memory R234). -/
theorem latchBusError_latched {s : State} (free : s.dev.ahbStat.getLsbD 8 = false) (m : Master) (r : Bool) (a : Word) (n : Nat) :
    (latchBusError s m r a n).dev.ahbFail = a ∧ (latchBusError s m r a n).dev.ahbStat.getLsbD 8 = true ∧
      (latchBusError s m r a n).dev.ahbStat.getLsbD 7 = r := by
  rw [latchBusError, bit, free, if_neg Bool.false_ne_true]
  exact ⟨rfl, ahbStat_bits s.dev.ahbStat r (hsize n)⟩

/-- A watchpoint that matches no access matches none of one kind. -/
theorem noWatch_of_both {s : State} {a : Word} (h : NoWatch s true true a) (l w : Bool) : NoWatch s l w a := by
  unfold NoWatch watchData at h ⊢
  rw [List.any_eq_false] at h ⊢
  intro x hx
  have none' := h x hx
  revert none'
  cases l <;> cases w <;> cases x.dl <;> cases x.ds <;> simp

/-- Settles O45. -/
theorem unassignedAddressTraps : Obligations.UnassignedAddressTraps := by
  intro s free nothing latched
  have unanswered {a : Word} {c : CacheId} (h : nothing a c) : Unanswered s a ∧ (cacheable a && cacheOn s.dev c) = false := by
    rcases h with range | range | ⟨external, honoured, low, off⟩
    · simp [Unanswered, cacheable, areaOf_unassigned (.inl range)]
    · simp [Unanswered, cacheable, areaOf_unassigned (.inr range)]
    · refine ⟨.inr ⟨?_, areaOf_external external⟩, by simp [off]⟩
      simp [busException, bit, honoured, low]
  constructor
  · intro hp rd rs1 op2 a fails loads stores none' idle nw
    obtain ⟨un, off⟩ := unanswered none'
    constructor
    · intro can
      refine loads_fail (P := fun o => ∃ u t, o = .next t ∧ EntersTrap u t ttDataAccess ∧ u.cpu = s.cpu ∧ u.mem = s.mem ∧
          u.memFlip = s.memFlip ∧ latched u a true) (E := fun sz => latchBusError s .iu true a sz.bytes) hp rd rs1 op2 (fun sz => ?_)
        (fun sz k => withLoad_error idle (areaRead_unanswered un _ _) off k) (noWatch_of_both nw _ _) nw
      obtain ⟨t, taken, enters, cpu, mem, flip⟩ := raise_latched hp.2.2 can .iu true a sz.bytes
      exact ⟨_, t, taken, enters, cpu, mem, flip, latchBusError_latched free _ _ _ _⟩
    · intro can
      refine stores_fail (P := fun o => ∃ u t, o = .next t ∧ EntersTrap u t ttStoreError ∧ u.cpu = s.cpu ∧ u.mem = s.mem ∧
          u.memFlip = s.memFlip ∧ latched u a false) (E := fun sz => latchBusError s .iu false a sz.bytes) hp rd rs1 op2 (fun sz => ?_)
        (fun sz v k => withStore_error idle (areaWrite_unanswered un _ _) k) (noWatch_of_both nw _ _)
      obtain ⟨t, taken, enters, cpu, mem, flip⟩ := raise_latched hp.2.2 can .iu false a sz.bytes
      exact ⟨_, t, taken, enters, cpu, mem, flip, latchBusError_latched free _ _ _ _⟩
  · intro runs none' idle inj can
    obtain ⟨un, off⟩ := unanswered none'
    have ready : s.ready.dev = s.dev ∧ busException s.ready = busException s ∧ s.ready.mem = s.mem ∧ s.ready.memFlip = s.memFlip := by
      unfold State.ready skipAnnulled
      split <;> exact ⟨rfl, rfl, rfl, rfl⟩
    obtain ⟨dev, bexc, mem, flip⟩ := ready
    rw [← dev] at off free
    rw [Unanswered, ← bexc] at un
    let u := latchBusError s.ready .iu true s.ready.pc 4
    have idle' : DsuIdle u s.ready.pc := latchBusError_idle idle .iu true 4
    obtain ⟨t, taken, enters, cpu, mem', flip'⟩ := raise_latched inj can .iu true s.ready.pc 4
    refine ⟨u, t, ?_, enters, cpu, mem'.trans mem, flip'.trans flip, latchBusError_latched free .iu true s.ready.pc 4⟩
    have fetch : fetchWord s.ready s.ready.pc = .err u := by
      rw [fetchWord, off, if_neg Bool.false_ne_true, busRead_error idle (areaRead_unanswered un true .word)]
      rfl
    have trap : trapState u id ttInstructionAccess = t := by injection taken
    rw [step_of_runs runs, instrStep, fetch]
    simp only [lostOpcode_idle idle', trap]

end Sys2Proof.Proofs

/-! PROOFS. The timers and the watchdog, and the interrupt registers as software sees them. -/

namespace Sys2Proof.Proofs

open Sys2Proof Sys2Proof.Machine

/-! ### The timers and the watchdog (60 R681 to R684) -/

theorem count24_eq_zero_iff (w : Word) : count24 w = 0 ↔ w.toNat % 2 ^ 24 = 0 := by
  rw [← BitVec.toNat_inj, count24, BitVec.toNat_and]
  exact Eq.congr (Nat.and_two_pow_sub_one_eq_mod w.toNat 24) rfl

/-- The count of a word that took another count. -/
theorem toNat_setCount24 (w v : Word) : (setCount24 w v).toNat % 2 ^ 24 = v.toNat % 2 ^ 24 := by
  have old : (w &&& ~~~0x00FFFFFF#32).toNat % 2 ^ 24 = 0 := by
    rw [BitVec.toNat_and, Nat.and_mod_two_pow]
    exact Nat.and_zero _
  have new : (v &&& 0x00FFFFFF#32).toNat % 2 ^ 24 = v.toNat % 2 ^ 24 := by
    rw [BitVec.toNat_and, Nat.and_mod_two_pow]
    exact (Nat.and_two_pow_sub_one_eq_mod _ 24).trans (Nat.mod_mod _ _)
  rw [setCount24, mergeMask, BitVec.toNat_or, Nat.or_mod_two_pow, old, new, Nat.zero_or]

/-- A count that is not 0 goes down by one. -/
theorem toNat_sub_one_mod {w : Word} (h : w.toNat % 2 ^ 24 ≠ 0) : (w - 1).toNat % 2 ^ 24 = w.toNat % 2 ^ 24 - 1 := by
  have bound := w.isLt
  have one : (1 : Word).toNat = 1 := rfl
  rw [BitVec.toNat_sub, one]
  omega

/-- What one tick does to a timer, and when it underflows. -/
theorem timerTick_spec (t : Timer) :
    (t.ctrl.getLsbD 0 = false → (timerTick t).1 = t) ∧
      (t.ctrl.getLsbD 0 = true → t.val.toNat % 2 ^ 24 ≠ 0 → (timerTick t).1.val.toNat % 2 ^ 24 = t.val.toNat % 2 ^ 24 - 1 ∧
        (timerTick t).1.ctrl = t.ctrl ∧ (timerTick t).1.rld = t.rld) ∧
      (t.ctrl.getLsbD 0 = true → t.val.toNat % 2 ^ 24 = 0 → t.ctrl.getLsbD 1 = true →
        (timerTick t).1.val.toNat % 2 ^ 24 = t.rld.toNat % 2 ^ 24 ∧ (timerTick t).1.ctrl = t.ctrl ∧ (timerTick t).1.rld = t.rld) ∧
      (timerTick t).2 = (t.ctrl.getLsbD 0 && decide (t.val.toNat % 2 ^ 24 = 0)) := by
  have zero_iff := count24_eq_zero_iff t.val
  unfold timerTick
  refine ⟨fun off => ?_, fun on low => ?_, fun on zero reload => ?_, ?_⟩
  · rw [bit, off]
    rfl
  · rw [if_pos (show bit t.ctrl 0 = true from on), if_neg (mt zero_iff.1 low)]
    exact ⟨(toNat_setCount24 _ _).trans (toNat_sub_one_mod low), rfl, rfl⟩
  · rw [if_pos (show bit t.ctrl 0 = true from on), if_pos (zero_iff.2 zero), if_pos (show bit t.ctrl 1 = true from reload)]
    exact ⟨toNat_setCount24 _ _, rfl, rfl⟩
  · rw [bit]
    cases t.ctrl.getLsbD 0
    · rfl
    · rw [if_pos rfl, Bool.true_and, ← decide_eq_decide.2 zero_iff]
      split
      · next zero => rw [decide_eq_true zero, apply_ite Prod.snd, ite_self]
      · next low => rw [decide_eq_false low]

theorem watchdogTick_timers (d : Dev) :
    (watchdogTick d).tim1 = d.tim1 ∧ (watchdogTick d).tim2 = d.tim2 ∧ (watchdogTick d).ipend = d.ipend := by
  unfold watchdogTick
  split
  · split <;> exact ⟨rfl, rfl, rfl⟩
  · exact ⟨rfl, rfl, rfl⟩

/-- What one tick does to the watchdog. -/
theorem watchdogTick_spec (d : Dev) :
    (d.tim1.ctrl.getLsbD 4 = true → if d.wdog.toNat % 2 ^ 24 = 0 then (watchdogTick d).wdogAsserted = true ∧ (watchdogTick d).wdog = d.wdog
      else (watchdogTick d).wdog.toNat % 2 ^ 24 = d.wdog.toNat % 2 ^ 24 - 1) ∧
    (d.tim1.ctrl.getLsbD 4 = false → (watchdogTick d).wdog = d.wdog ∧ (watchdogTick d).wdogAsserted = d.wdogAsserted) := by
  unfold watchdogTick
  simp only [count24_eq_zero_iff, bit]
  refine ⟨fun on => ?_, fun off => by rw [off]; exact ⟨rfl, rfl⟩⟩
  rw [if_pos on]
  split
  · exact ⟨rfl, rfl⟩
  · next low => exact (toNat_setCount24 _ _).trans (toNat_sub_one_mod low)

/-- A device field that pending interrupts leaves alone goes through a tick of the timers as the watchdog and the timers leave it. -/
theorem prescalerTick_fields (d : Dev) :
    (prescalerTick d).tim1 = (timerTick d.tim1).1 ∧ (prescalerTick d).tim2 = (timerTick d.tim2).1 ∧
      (prescalerTick d).wdog = (watchdogTick d).wdog ∧ (prescalerTick d).wdogAsserted = (watchdogTick d).wdogAsserted ∧
      (prescalerTick d).ipend = (d.ipend ||| if (timerTick d.tim1).2 then 1#16 <<< 8 else 0) ||| if (timerTick d.tim2).2 then 1#16 <<< 9 else 0 := by
  obtain ⟨tim1, tim2, ipend⟩ := watchdogTick_timers d
  unfold prescalerTick
  simp only [tim1, tim2, ← ipend]
  cases (timerTick d.tim1).2 <;> cases (timerTick d.tim2).2 <;> simp [Dev.pend]

/-- Settles O59. -/
theorem timerTick : Obligations.TimerTick := by
  intro d n e ticks
  obtain ⟨tim1, tim2, wdog, asserted, ipend⟩ := prescalerTick_fields d
  obtain ⟨off1, down1, reload1, under1⟩ := timerTick_spec d.tim1
  obtain ⟨off2, down2, reload2, under2⟩ := timerTick_spec d.tim2
  refine ⟨?_, ?_, ?_, ?_, ?_⟩
  · change ticks d.tim1 (prescalerTick d).tim1
    rw [tim1]
    exact ⟨off1, down1, reload1⟩
  · change ticks d.tim2 (prescalerTick d).tim2
    rw [tim2]
    exact ⟨off2, down2, reload2⟩
  · change (prescalerTick d).ipend.getLsbD 8 = _
    rw [ipend, ← under1]
    cases (Machine.timerTick d.tim1).2 <;> cases (Machine.timerTick d.tim2).2 <;> simp
  · change (prescalerTick d).ipend.getLsbD 9 = _
    rw [ipend, ← under2]
    cases (Machine.timerTick d.tim1).2 <;> cases (Machine.timerTick d.tim2).2 <;> simp
  · change (_ → if n d.wdog = 0 then (prescalerTick d).wdogAsserted = true ∧ (prescalerTick d).wdog = d.wdog
        else n (prescalerTick d).wdog = n d.wdog - 1) ∧
      (_ → (prescalerTick d).wdog = d.wdog ∧ (prescalerTick d).wdogAsserted = d.wdogAsserted)
    rw [wdog, asserted]
    exact watchdogTick_spec d

/-! ### The interrupt registers (10_state R74 to R77) -/

/-- The writable bits of the force register and those the clear register names. -/
theorem forceBits_eq (v : Word) : v.extractLsb' 0 16 &&& 0xFFFE#16 = v.extractLsb' 1 15 ++ 0#1 := by
  apply BitVec.eq_of_getLsbD_eq
  intro i hi
  rw [BitVec.getLsbD_and, BitVec.getLsbD_append]
  rcases i with - | j
  · simp
  · have bound : j < 15 := by omega
    have mask : (0xFFFE#16).getLsbD (j + 1) = true := by
      interval_cases j <;> rfl
    simpa [mask, bound, Nat.add_comm 1 j] using fun _ => hi

theorem zeros_append (x : BitVec 16) : 0#16 ++ x = x.setWidth 32 := by
  apply BitVec.eq_of_toNat_eq
  rw [toNat_append_add]
  simp only [BitVec.toNat_ofNat, BitVec.toNat_setWidth]
  omega

section
variable {s : State} {a : Word} (area : areaOf a = .regs) (idle : DsuIdle s a)
include area idle

theorem withStore_reg {v : Word} {d : Dev} (write : writeReg s (a.toNat - 0x80000000) v = { s with dev := d }) (k : State → Result) :
    withStore s a .word v k = k { s with dev := d } := by
  have idle' : DsuIdle { s with dev := d } a := idle
  simp [withStore, dataWrite, busWrite, areaWrite, area, write, widthDefined, dsuSeesBus_idle idle', cacheable]

theorem withLoad_reg {v : Word} (read : readReg s (a.toNat - 0x80000000) = (v, s)) (k : State → Word → Result) :
    withLoad s .normal a .word k = k s v := by
  simp [withLoad, dataRead, busRead, areaRead, area, read, widthDefined, dsuSeesBus_idle idle, cacheable]

end

/-- Settles O60. -/
theorem interruptRegisters : Obligations.InterruptRegisters := by
  intro s rd rs1 op2 hp a v bits stores loads idle
  have inj := hp.2.2
  have store {d : Dev} (nw : NoWatch s false true a) (al : a.toNat % 4 = 0) (area : areaOf a = .regs)
      {k : Nat} (off : a.toNat - 0x80000000 = k) (write : writeReg s k v = { s with dev := d }) : stores d := by
    change Completes (storeOp s rd rs1 op2 .word id) _ _ _
    subst off
    rw [storeOp_eq hp rd rs1 op2 nw, show Size.word.bytes = 4 from rfl, withAligned_pass ((aligned_four_iff _).2 al), id,
      withStore_reg area idle write]
    exact completes_advance _
  have load {x : Word} (nw : NoWatch s true false a) (al : a.toNat % 4 = 0) (area : areaOf a = .regs)
      {k : Nat} (off : a.toNat - 0x80000000 = k) (read : readReg s k = (x, s)) : loads x := by
    change Completes (loadOp s rd rs1 op2 .word id) _ _ _
    subst off
    rw [loadOp_eq hp rd rs1 op2 nw, show Size.word.bytes = 4 from rfl, withAligned_pass ((aligned_four_iff _).2 al),
      withLoad_reg area idle read]
    exact completes_writeR inj rd x
  refine ⟨fun nw => ⟨fun at' => ?_, fun at' => ?_, fun at' => ?_⟩, fun nw => ⟨fun at' => ?_, fun at' => ?_, fun at' => ?_, fun at' => ?_⟩⟩
  · exact store nw (by rw [at']; rfl) (by rw [at']; rfl) (k := 0x90) (by rw [at']; rfl) rfl
  · refine store nw (by rw [at']; rfl) (by rw [at']; rfl) (k := 0x98) (by rw [at']; rfl) ?_
    change _ = { s with dev := { s.dev with iforce := v.extractLsb' 1 15 ++ 0#1 } }
    rw [← forceBits_eq]
    rfl
  · refine store nw (by rw [at']; rfl) (by rw [at']; rfl) (k := 0x9C) (by rw [at']; rfl) ?_
    change _ = { s with dev := { s.dev with ipend := s.dev.ipend &&& ~~~(v.extractLsb' 1 15 ++ 0#1) } }
    rw [← forceBits_eq]
    rfl
  · exact load nw (by rw [at']; rfl) (by rw [at']; rfl) (k := 0x90) (by rw [at']; rfl) rfl
  · refine load nw (by rw [at']; rfl) (by rw [at']; rfl) (k := 0x94) (by rw [at']; rfl) ?_
    rw [zeros_append]
    rfl
  · refine load nw (by rw [at']; rfl) (by rw [at']; rfl) (k := 0x98) (by rw [at']; rfl) ?_
    rw [zeros_append]
    rfl
  · exact load nw (by rw [at']; rfl) (by rw [at']; rfl) (k := 0x9C) (by rw [at']; rfl) rfl

end Sys2Proof.Proofs

/-! PROOFS. Floating-point loads, stores, moves and comparisons, and the traps of the FPU. -/

namespace Sys2Proof.Proofs

open Sys2Proof Sys2Proof.Machine

/-! ### Writing f registers -/

theorem fregIndex_ne {n m : RegNum} (h : n ≠ m) : fregIndex n ≠ fregIndex m :=
  fun e => h (BitVec.eq_of_toNat_eq (congrArg Fin.val e))

theorem completesF_advance (u : State) : CompletesF (.next (advance u)) u [] :=
  ⟨advance u, rfl, ⟨fun _ h => absurd h List.not_mem_nil, fun _ _ => rfl⟩, rfl, fun _ => rfl⟩

theorem completesF_writeF (u : State) (rd : RegNum) (v : Word) : CompletesF (.next (advance (writeF u rd v))) u [(rd, v)] := by
  refine ⟨_, rfl, ⟨fun p hp => ?_, fun i hi => ?_⟩, rfl, fun _ => rfl⟩
  · obtain rfl := List.mem_singleton.1 hp
    exact get_set_self _ _ _
  · exact get_set_ne _ _ _ _ (hi _ (List.mem_singleton.2 rfl))

theorem completesF_writeFPair (u : State) (rd : RegNum) (hi lo : Word) :
    CompletesF (.next (advance (writeFPair u rd hi lo))) u [(rd, hi), (rd + 1, lo)] := by
  have low_ne : fregIndex rd ≠ fregIndex (rd + 1) := fregIndex_ne (ne_add_one rd)
  refine ⟨_, rfl, ⟨fun p hp => ?_, fun i hne => ?_⟩, rfl, fun _ => rfl⟩
  · rcases List.mem_pair.1 hp with rfl | rfl
    · exact (get_set_ne _ _ _ _ low_ne).trans (get_set_self _ _ _)
    · exact get_set_self _ _ _
  · exact (get_set_ne _ _ _ _ (hne (rd + 1, lo) (by simp))).trans (get_set_ne _ _ _ _ (hne (rd, hi) (by simp)))

/-! ### Loads and stores -/

/-- Settles O48. -/
theorem fpLoadResults : Obligations.FpLoadResults := by
  intro s rd rs1 op2 fp a w ram nw
  obtain ⟨hp, fc, ef⟩ := fp
  refine ⟨fun al => ⟨?_, ?_⟩, fun al even ram4 => ?_⟩
  · change CompletesF (execLdf rd rs1 op2 s) _ _
    rw [execLdf_eq hp ef rd rs1 op2 nw, withAligned_pass ((aligned_four_iff _).2 al), withLoad_word ram .normal al]
    exact completesF_writeF s rd w
  · change CompletesF (execLdfsr rs1 op2 s) _ _
    rw [execLdfsr_eq hp ef rs1 op2 nw, withAligned_pass ((aligned_four_iff _).2 al), withLoad_word ram .normal al]
    exact completesF_advance _
  · change CompletesF (execLddf rd rs1 op2 s) _ _
    rw [execLddf_eq hp ef rd rs1 op2 nw, withAligned_pass ((aligned_eight_iff _).2 al), if_neg (by simp [oddReg_eq, even]),
      withLoadPair_plain ram .normal al ram4]
    exact completesF_writeFPair s rd w (s.wordAt (a.toNat + 4))

/-- FSR as a number, field by field. -/
theorem fsrWord_toNat (f : Fsr) : (fsrWord f).toNat =
    f.rd.toNat * 2 ^ 30 + f.tem.toNat * 2 ^ 23 + f.ns.toNat * 2 ^ 22 + f.ftt.toNat * 2 ^ 14 + f.fcc.toNat * 2 ^ 10 + f.aexc.toNat * 2 ^ 5 +
      f.cexc.toNat := by
  apply Eq.trans (b := (f.rd ++ 0#2 ++ f.tem ++ b1 f.ns ++ 0#2 ++ 0#3 ++ f.ftt ++ 0#2 ++ f.fcc ++ f.aexc ++ f.cexc).toNat) rfl
  simp only [toNat_append_add, toNat_b1, BitVec.toNat_ofNat]
  omega

/-- Where the bits of FSR are that hold no field (10_state R37). -/
theorem fsrMask_bits : ∀ i < 32, (0x303E3000#32).getLsbD i = true → i ∈ [12, 13, 17, 18, 19, 20, 21, 28, 29] := by decide

theorem fsrWord_fields (f : Fsr) :
    (fsrWord f).extractLsb' 30 2 = f.rd ∧ (fsrWord f).extractLsb' 23 5 = f.tem ∧ (fsrWord f).getLsbD 22 = f.ns ∧
      (fsrWord f).extractLsb' 14 3 = f.ftt ∧ (fsrWord f).extractLsb' 10 2 = f.fcc ∧ (fsrWord f).extractLsb' 5 5 = f.aexc ∧
      (fsrWord f).extractLsb' 0 5 = f.cexc ∧ fsrWord f &&& 0x303E3000#32 = 0 := by
  have word := fsrWord_toNat f
  have rd := f.rd.isLt
  have tem := f.tem.isLt
  have ns := f.ns.toNat_lt
  have ftt := f.ftt.isLt
  have fcc := f.fcc.isLt
  have aexc := f.aexc.isLt
  have cexc := f.cexc.isLt
  refine ⟨extractLsb'_of_toNat (by omega), extractLsb'_of_toNat (by omega), getLsbD_of_toNat (by omega), extractLsb'_of_toNat (by omega),
    extractLsb'_of_toNat (by omega), extractLsb'_of_toNat (by omega), extractLsb'_of_toNat (by omega), ?_⟩
  apply BitVec.eq_of_getLsbD_eq
  intro i hi
  rw [BitVec.getLsbD_and]
  cases mask : (0x303E3000#32).getLsbD i with
  | false => simp
  | true =>
    have clear : (fsrWord f).getLsbD i = false := by
      apply getLsbD_of_toNat
      rcases List.mem_cons.1 (fsrMask_bits i hi mask) with rfl | rest
      · simp only [Bool.toNat_false]
        omega
      · simp only [List.mem_cons, List.not_mem_nil, or_false] at rest
        rcases rest with rfl | rfl | rfl | rfl | rfl | rfl | rfl | rfl <;> (simp only [Bool.toNat_false]; omega)
    simp [clear]

theorem stfsr_completes {s : State} (inj : NoInjection s) {a : Word} (ram : WritableRam s a) (al : a.toNat % 4 = 0) (w : Word)
    (g : Fsr → Fsr) :
    CompletesStore (withStore s a .word w fun s2 => .next (advance { s2 with fsr := g s2.fsr })) { s with fsr := g s.fsr } a
      (bytesOfWord w) 0 0 := by
  obtain ⟨t, written, bytes, flips, m, f, rfl⟩ := dataWrite_stored (sz := .word) ram (.inr (.inr ⟨rfl, al⟩)) w
  rw [withStore, written]
  have stored : Stored { s with fsr := g s.fsr } { s with mem := m, memFlip := f, fsr := g s.fsr } a (bytesOfWord w) :=
    ⟨bytes, flips, m, f, rfl⟩
  exact completesStore_of_stored (s := { s with fsr := g s.fsr }) inj stored 0 0

/-- Settles O49. -/
theorem fpStoreResults : Obligations.FpStoreResults := by
  intro s rd rs1 op2 fp a ram nw
  obtain ⟨hp, fc, ef⟩ := fp
  refine ⟨fun al => ⟨?_, ?_⟩, fun al even ram4 => ?_⟩
  · change CompletesStore (execStf rd rs1 op2 s) _ _ _ _ _
    rw [execStf_eq hp ef rd rs1 op2 fc nw]
    exact storeWord_completes hp.2.2 ram al (s.f rd)
  · obtain ⟨hrd, tem, ns, ftt, fcc, aexc, cexc, rest⟩ := fsrWord_fields s.fsr
    refine ⟨fsrWord s.fsr, hrd, tem, ns, ftt, fcc, aexc, cexc, rest, ?_⟩
    change CompletesStore (execStfsr rs1 op2 s) _ _ _ _ _
    rw [execStfsr_eq hp ef rs1 op2 nw, withAligned_pass ((aligned_four_iff _).2 al)]
    exact stfsr_completes hp.2.2 ram al (fsrWord s.fsr) fun f => { f with ftt := 0 }
  · change CompletesStore (execStdf rd rs1 op2 s) _ _ _ _ _
    rw [execStdf_even hp ef rd rs1 op2 fc (by simp [oddReg_eq, even]) nw]
    exact storePair_completes hp.2.2 ram al ram4 _ _

/-! ### The end of an operation -/

theorem fpop_pass {s : State} (hp : Plain s) (ef : s.psr.ef = true) (k : Result) : fpop s false k = k := by
  rw [fpop, checked_fpChecks hp ef, if_neg Bool.false_ne_true]

theorem fpop_odd {s : State} (hp : Plain s) (ef : s.psr.ef = true) (k : Result) : fpop s true k = raiseFp s fttInvalidRegister := by
  rw [fpop, checked_fpChecks hp ef, if_pos rfl]

theorem withS_clean {s : State} (fc : FregsClean s) (n : RegNum) (k : State → Nat → Result) : withS s n k = k s (s.single n) := by
  rw [withS, withF_clean fc]
  rfl

theorem withD_clean {s : State} (fc : FregsClean s) (n : RegNum) (k : State → Nat → Result) : withD s n k = k s (s.double n) := by
  rw [withD, withF_clean fc, withF_clean fc]
  rfl

/-- The registers hold what an operation without an enabled exception leaves. -/
theorem fpComplete_done {s : State} {x : BitVec 5} (quiet : s.fsr.tem &&& x = 0) (put : State → State) :
    fpComplete s x put = .next (advance (put { s with fsr := { s.fsr with cexc := x, aexc := s.fsr.aexc ||| x, ftt := 0 } })) := by
  rw [fpComplete, if_neg (not_not.2 quiet)]

theorem fpComplete_traps {s : State} (inj : NoInjection s) (can : CanTrap s ttFpException) {x : BitVec 5} (on : ¬ s.fsr.tem &&& x = 0)
    (put : State → State) :
    Traps (fpComplete s x put) { s with fsr := { s.fsr with cexc := x, ftt := fttIeee } } ttFpException := by
  rw [fpComplete, if_pos on, trapState_taken can]
  have inj' : NoInjection { s with fsr := { s.fsr with cexc := x, ftt := fttIeee } } := inj
  exact ⟨_, rfl, enterTrap_spec inj' _⟩

/-- Subnormal numbers are computed with (parameter FP_SUBNORMAL). -/
theorem fpArith_eq (s : State) (sub : Bool) (r : FpResult) (put : FpResult → State → State) :
    fpArith s sub r put = fpComplete s (r.exceptions s.fsr.tem) (put r) := by
  rw [fpArith, if_neg (by simp [Config.fpSubnormal])]

/-! ### Moves -/

theorem fpBits_completes {s : State} (fp : FpPlain s) (rd rs2 : RegNum) (f : Word → Word) :
    CompletesF (fpBits s rd rs2 f) { s with fsr := { s.fsr with cexc := 0, ftt := 0 } } [(rd, f (s.f rs2))] := by
  obtain ⟨hp, fc, ef⟩ := fp
  rw [fpBits, fpop_pass hp ef, withF_clean fc, fpComplete_done (show s.fsr.tem &&& (0 : BitVec 5) = 0 from BitVec.and_zero),
    show s.fsr.aexc ||| (0 : BitVec 5) = s.fsr.aexc from BitVec.or_zero]
  exact completesF_writeF _ rd _

/-- Settles O50. -/
theorem fpMoveResults : Obligations.FpMoveResults :=
  fun _ rd rs2 fp => ⟨fpBits_completes fp rd rs2 fun w => w, fpBits_completes fp rd rs2 fun w => w ^^^ 0x80000000#32,
    fpBits_completes fp rd rs2 fun w => w &&& 0x7FFFFFFF#32⟩

/-! ### The FPU switched off, and what it does not implement -/

theorem checked_fpOff {s : State} (off : s.psr.ef = false) (k : Result) : checked s (fpChecks s) k = raise s ttFpDisabled := by
  rw [fpChecks, off, Bool.not_false, checked_trap]

theorem exec_floating_off {i : Instr} (hi : floating i = true) {s : State} (off : s.psr.ef = false) : exec i s = raise s ttFpDisabled := by
  unfold floating at hi
  split at hi
  all_goals first | exact checked_fpOff off _ | exact absurd hi Bool.false_ne_true

/-- Settles O57. -/
theorem fpDisabledTraps : Obligations.FpDisabledTraps := by
  intro s inj
  refine ⟨fun off can => ⟨fun i hi => ?_, fun sup rs1 op2 => ?_⟩, fun on sup watch can rs1 op2 => ?_⟩
  · rw [exec_floating_off hi off]
    exact traps_raise inj can
  · change Traps (execStdfq rs1 op2 s) _ _
    rw [execStdfq, sup, off, Bool.not_true, Bool.not_false, checked_skip, checked_trap]
    exact traps_raise inj can
  · change Traps (execStdfq rs1 op2 s) _ _
    rw [execStdfq, sup, on, Bool.not_true, checked_skip, checked_skip, checked_nil watch]
    exact traps_raiseFp inj can fttSequence

theorem exec_quad {i : Instr} (hi : quad i = true) (s : State) : exec i s = fpUnimplemented s := by
  unfold quad at hi
  split at hi
  case h_15 => cases hi
  all_goals rfl

theorem exec_oddDouble {i : Instr} (hi : oddDouble i = true) {s : State} (hp : Plain s) (ef : s.psr.ef = true) :
    exec i s = raiseFp s fttInvalidRegister := by
  have odd {b : Bool} (h : b = true) (k : Result) : fpop s b k = raiseFp s fttInvalidRegister := by rw [h, fpop_odd hp ef]
  unfold oddDouble at hi
  split at hi
  case h_13 => cases hi
  all_goals exact odd hi _

/-- Settles O58. -/
theorem fpExceptionTraps : Obligations.FpExceptionTraps := by
  intro s hp ef can traps
  have inj := hp.2.2
  refine ⟨fun i hi => ?_, fun i hi => ?_, fun rd rs1 op2 odd al => ⟨fun nw => ?_, fun nw => ?_⟩⟩
  · change Traps (exec i s) _ _
    rw [exec_quad hi]
    exact fpUnimplemented_enabled inj ef hp.1 can
  · change Traps (exec i s) _ _
    rw [exec_oddDouble hi hp ef]
    exact traps_raiseFp inj can fttInvalidRegister
  · change Traps (execLddf rd rs1 op2 s) _ _
    rw [execLddf_eq hp ef rd rs1 op2 nw, withAligned_pass ((aligned_eight_iff _).2 al), if_pos (by simp [oddReg_eq, odd])]
    exact traps_raiseFp inj can fttInvalidRegister
  · change Traps (execStdf rd rs1 op2 s) _ _
    rw [execStdf_odd hp ef rd rs1 op2 (by simp [oddReg_eq, odd]) nw, withAligned_pass ((aligned_eight_iff _).2 al)]
    exact traps_raiseFp inj can fttInvalidRegister

/-! ### Comparisons -/

theorem exceptions_nv (nv : Bool) (tem : BitVec 5) :
    ({ bits := 0, nv := nv } : FpResult).exceptions tem = if nv then 0b10000 else 0 := by
  cases nv <;> simp [FpResult.exceptions, b1]

theorem fpCompare_done {s : State} (inj : NoInjection s) (t : FpFormat) (a b : Nat) (all : Bool) :
    let nv := (unpack t a).isSignaling || (unpack t b).isSignaling || (all && ((unpack t a).isNan || (unpack t b).isNan))
    let e : BitVec 5 := if nv then 0b10000 else 0
    if s.fsr.tem &&& e = 0 then
      CompletesF (fpCompare s t a b all)
        { s with fsr := { s.fsr with cexc := e, aexc := s.fsr.aexc ||| e, ftt := 0, fcc := fpRelation t a b } } []
    else CanTrap s ttFpException →
      Traps (fpCompare s t a b all) { s with fsr := { s.fsr with cexc := e, ftt := fttIeee } } ttFpException := by
  intro nv e
  have flags : ({ bits := 0, nv := nv } : FpResult).exceptions s.fsr.tem = e := exceptions_nv nv s.fsr.tem
  rw [fpCompare, fpArith_eq, flags]
  split
  · next quiet =>
    rw [fpComplete_done quiet]
    exact completesF_advance _
  · next on => exact fun can => fpComplete_traps inj can on _

/-- Settles O53. -/
theorem fpCompareResults : Obligations.FpCompareResults := by
  intro s rs1 rs2 fp done
  obtain ⟨hp, fc, ef⟩ := fp
  have shapeS (all : Bool) : fpCmpS s rs1 rs2 all = fpCompare s single (s.single rs1) (s.single rs2) all := by
    rw [fpCmpS, fpop_pass hp ef, withS_clean fc, withS_clean fc]
  refine ⟨?_, ?_, fun even1 even2 => ?_⟩
  · have := fpCompare_done hp.2.2 single (s.single rs1) (s.single rs2) false
    rw [← shapeS] at this
    exact this
  · have := fpCompare_done hp.2.2 single (s.single rs1) (s.single rs2) true
    rw [← shapeS] at this
    exact this
  · have shapeD (all : Bool) : fpCmpD s rs1 rs2 all = fpCompare s double (s.double rs1) (s.double rs2) all := by
      rw [fpCmpD, oddReg_eq, oddReg_eq, decide_eq_false (by omega), decide_eq_false (by omega), Bool.or_false, fpop_pass hp ef,
        withD_clean fc, withD_clean fc]
    constructor
    · have := fpCompare_done hp.2.2 double (s.double rs1) (s.double rs2) false
      rw [← shapeD] at this
      exact this
    · have := fpCompare_done hp.2.2 double (s.double rs1) (s.double rs2) true
      rw [← shapeD] at this
      exact this

end Sys2Proof.Proofs

/-! PROOFS. Error correction in the registers and in memory. -/

namespace Sys2Proof.Proofs

open Sys2Proof Sys2Proof.Machine

/-- One flip is corrected, two are detected (20_memory R260, R272). -/
theorem edacFix_single : ∀ k < 39, edacFix (1#39 <<< k) = some 0 ∧ 1#39 <<< k ≠ 0 := by decide

theorem edacFix_double : ∀ k < 39, ∀ j < k, edacFix ((1#39 <<< j) ||| (1#39 <<< k)) = none ∧ (1#39 <<< j) ||| (1#39 <<< k) ≠ 0 := by decide

/-- A correction that leaves no flip undoes those in the data. -/
theorem fixData_flips (d : Word) (f : BitVec 39) : fixData d f 0 = d ^^^ f.extractLsb' 0 32 := by
  have none' : flipData 0 = 0 := rfl
  rw [fixData, none']
  exact BitVec.xor_zero

theorem countCorrected_eq (a : Asr16) :
    countCorrected a = { a with cnt := if a.cb = 0 ∧ a.cnt ≠ 0xFFFF#16 then a.cnt + 1 else a.cnt } := by
  unfold countCorrected
  simp only [Bool.and_eq_true, decide_eq_true_eq, Bool.not_eq_true', decide_eq_false_iff_not, ne_eq]
  split <;> rfl

/-! ### Registers -/

section
variable {s : State} {n : RegNum}

theorem readR_corrected (hn : n ≠ 0) {k : Nat} (hk : k < 39) (flip : (s.ireg.get (regIndex s.psr.cwp n)).flip = 1#39 <<< k) :
    readR s n =
      some ((s.ireg.get (regIndex s.psr.cwp n)).data ^^^ (1#39 <<< k).extractLsb' 0 32,
        { s with
          ireg := s.ireg.set (regIndex s.psr.cwp n).val
            { data := (s.ireg.get (regIndex s.psr.cwp n)).data ^^^ (1#39 <<< k).extractLsb' 0 32, flip := 0 } (regIndex s.psr.cwp n).isLt
          asr16 := countCorrected s.asr16 }) := by
  obtain ⟨fix, ne⟩ := edacFix_single k hk
  simp only [readR, if_neg hn, flip, if_neg ne, fix, fixData_flips]

theorem readR_detected (hn : n ≠ 0) {j k : Nat} (hj : j < k) (hk : k < 39)
    (flip : (s.ireg.get (regIndex s.psr.cwp n)).flip = (1#39 <<< j) ||| (1#39 <<< k)) : readR s n = none := by
  obtain ⟨fix, ne⟩ := edacFix_double k hk j hj
  simp only [readR, if_neg hn, flip, if_neg ne, fix]

theorem readF_corrected {k : Nat} (hk : k < 39) (flip : (s.freg.get (fregIndex n)).flip = 1#39 <<< k) :
    readF s n =
      some ((s.freg.get (fregIndex n)).data ^^^ (1#39 <<< k).extractLsb' 0 32,
        { s with
          freg := s.freg.set (fregIndex n).val
            { data := (s.freg.get (fregIndex n)).data ^^^ (1#39 <<< k).extractLsb' 0 32, flip := 0 } (fregIndex n).isLt
          asr16 := countCorrected s.asr16 }) := by
  obtain ⟨fix, ne⟩ := edacFix_single k hk
  simp only [readF, flip, if_neg ne, fix, fixData_flips]

theorem readF_detected {j k : Nat} (hj : j < k) (hk : k < 39)
    (flip : (s.freg.get (fregIndex n)).flip = (1#39 <<< j) ||| (1#39 <<< k)) : readF s n = none := by
  obtain ⟨fix, ne⟩ := edacFix_double k hk j hj
  simp only [readF, flip, if_neg ne, fix]

end

/-- Settles O46. -/
theorem registerEdac : Obligations.RegisterEdac := by
  intro s rd n watch i w
  refine ⟨fun hn inj k hk flip => ?_, fun hn inj j k hj hk flip can => ?_, fun hn inj imm22 => ?_, fun ef => ?_⟩
  · intro v
    have inj' : NoInjection { s with ireg := s.ireg.set i.val { data := v, flip := 0 } i.isLt, asr16 := countCorrected s.asr16 } := by
      rw [NoInjection, countCorrected_cb]
      exact inj
    change Completes (execOr rd n (.imm 0) s) _ _ _
    rw [← countCorrected_eq, execOr, intOp, checked_nil watch, withOperands, withR, readR_corrected hn hk flip, ← flip]
    have zero : v ||| sext13 0 = v := BitVec.or_zero
    change Completes (.next (advance (writeR _ rd (v ||| sext13 0)))) _ _ _
    rw [zero]
    exact completes_writeR inj' rd v
  · change Traps (execOr rd n (.imm 0) s) _ _
    rw [execOr, intOp, checked_nil watch, withOperands, withR, readR_detected hn hj hk flip]
    exact traps_raise inj can
  · change execSethi n imm22 s = _
    rw [execSethi, checked_nil watch, writeR, if_neg hn, writtenWord, if_pos inj]
    rfl
  · intro j x
    have pass (k : Result) : fpop s false k = k := by
      rw [fpop, fpChecks, checked_pass watch _ (by simp [ef]), if_neg Bool.false_ne_true]
    refine ⟨fun k hk flip => ?_, fun inj k l hj hl flip can => ?_⟩
    · intro v
      change CompletesF (execFmovs rd n s) _ _
      rw [← countCorrected_eq, execFmovs, fpBits, pass, withF, readF_corrected hk flip, ← flip]
      simp only
      rw [fpComplete_done (x := 0) BitVec.and_zero]
      have aexc : s.fsr.aexc ||| (0 : BitVec 5) = s.fsr.aexc := BitVec.or_zero
      simp only [aexc]
      exact completesF_writeF _ rd v
    · change Traps (execFmovs rd n s) _ _
      rw [execFmovs, fpBits, pass, withF, readF_detected hj hl flip]
      exact traps_raise inj can

/-! ### Memory -/

section
variable {s : State} {a : Word} {b : RamBank} (area : areaOf a = .ram) (al : a.toNat % 4 = 0) (bank : ramBank s.dev a = some b)
  (en : b.en = true) (bexc : busException s = false) (erb : erbOn s.dev = false) (ewb : ewbOn s.dev = false)
  (off : cacheOn s.dev .dcache = false) (idle : DsuIdle s a)

include al en erb ewb in
theorem readRam_corrected {k : Nat} (hk : k < 39) (flip : s.flipAt a.toNat = 1#39 <<< k) :
    readRam s b (wordBase a) = (some (s.wordAt a.toNat ^^^ (1#39 <<< k).extractLsb' 0 32),
      s.putWord a.toNat (s.wordAt a.toNat ^^^ (1#39 <<< k).extractLsb' 0 32) 0) := by
  obtain ⟨fix, ne⟩ := edacFix_single k hk
  simp only [readRam, wordBase_of_aligned al, tcbLatches, erb, en, ewb, flip, ne, fix, fixData_flips, Bool.false_and, Bool.not_false,
    Bool.true_and, Bool.not_true, decide_false, Bool.or_false, Bool.false_eq_true, if_false]

include al en erb ewb in
theorem readRam_detected {j k : Nat} (hj : j < k) (hk : k < 39) (flip : s.flipAt a.toNat = (1#39 <<< j) ||| (1#39 <<< k)) :
    readRam s b (wordBase a) = (none, s) := by
  obtain ⟨fix, ne⟩ := edacFix_double k hk j hj
  simp only [readRam, wordBase_of_aligned al, tcbLatches, erb, en, ewb, flip, ne, fix, Bool.false_and, Bool.not_false,
    Bool.true_and, Bool.not_true, decide_false, Bool.or_false, Bool.false_eq_true, if_false]

include area bank bexc off idle in
/-- A load of a word that the bank reads, correcting it. -/
theorem withLoad_corrected {v : Word} (read : readRam s b (wordBase a) = (some v, s.putWord a.toNat v 0)) (k : State → Word → Result) :
    withLoad s .normal a .word k = k (s.putWord a.toNat v 0) v := by
  have idle' : DsuIdle (s.putWord a.toNat v 0) a := idle
  have whole : subword v Size.word.bytes (a.toNat % 4) = v := by
    rw [subword, if_pos (show Size.word.bytes = 4 from rfl)]
  simp only [withLoad, dataRead, off, Bool.and_false, Bool.false_eq_true, if_false, busRead, areaRead, area, bank, bexc, read,
    dsuSeesBus_idle idle', whole]

end

/-- Settles O47. -/
theorem memoryEdac : Obligations.MemoryEdac := by
  intro s rd rs1 op2 b hp a area al bank en bexc erb ewb off idle nw
  have inj := hp.2.2
  have shape : exec (.ld rd rs1 op2) s = withLoad s .normal a .word fun s2 v => .next (advance (writeR s2 rd v)) :=
    (loadOp_eq hp rd rs1 op2 nw .word id).trans (withAligned_pass ((aligned_four_iff a).2 al) _)
  refine ⟨fun k hk flip => ?_, fun j k hj hk flip can => ?_⟩
  · intro v
    rw [shape, withLoad_corrected area bank bexc off idle (readRam_corrected al en erb ewb hk flip)]
    obtain ⟨i, frame⟩ := writeR_frame (s.putWord a.toNat v 0) rd v
    have regs := writeR_spec (s := s.putWord a.toNat v 0) inj rd v
    refine ⟨_, rfl, regs, ?_, ?_, fun x hx => ?_, fun x hx => ?_, ?_⟩
    · rw [frame]
      exact wordAt_putWord_self s _ v 0
    · rw [frame]
      exact (flipAt_putWord s _ _ v 0).trans (if_pos rfl)
    · rw [frame]
      exact byteAt_putWord_of_ne s _ v 0 x hx
    · rw [frame]
      exact flipAt_putWord_ne s v 0 hx
    · rw [frame]
      rfl
  · have err : areaRead s false a .word = .err s := by
      simp only [areaRead, area, bank, bexc, readRam_detected al en erb ewb hj hk flip, Bool.false_eq_true, if_false]
    obtain ⟨t, taken, enters, cpu, mem, flips⟩ := raise_latched inj can .iu true a Size.word.bytes
    rw [shape, withLoad_error idle err (by simp [off])]
    exact ⟨_, t, taken, enters, cpu, mem, flips⟩

end Sys2Proof.Proofs

/-! PROOFS. The numbers of a floating-point format in order: bits without the sign count the magnitudes upwards (44 R570). -/

namespace Sys2Proof.Proofs

open Sys2Proof Sys2Proof.Machine

/-! ### Formats -/

/-- What the rounding of 44 R570 asks of a format: a fraction, a bias in the middle of the exponents, and a bias wider than the fraction. -/
structure Ieee (t : FpFormat) : Prop where
  fraction : 1 ≤ t.mb
  exponents : 2 ^ t.eb = 2 * t.bias + 2
  room : t.mb + 2 ≤ t.bias

theorem ieee_single : Ieee single := ⟨by decide, by decide, by decide⟩

theorem ieee_double : Ieee double := ⟨by decide, by decide, by decide⟩

/-! ### Magnitudes -/

/-- The least positive number of a format. -/
noncomputable def leastUnit (t : FpFormat) : ℝ := 2 ^ (1 - (t.bias : ℤ) - t.mb)

theorem leastUnit_pos (t : FpFormat) : 0 < leastUnit t := by
  unfold leastUnit
  positivity

/-- The exponent field above the lowest one, 0 for subnormal numbers too. -/
def level (t : FpFormat) (g : Nat) : Nat := g / 2 ^ t.mb - 1

/-- The magnitude with the bits `g` below the sign, `g` counting on past the largest finite number. -/
noncomputable def magnitude (t : FpFormat) (g : Nat) : ℝ := ((g - level t g * 2 ^ t.mb : Nat) : ℝ) * 2 ^ level t g * leastUnit t

theorem level_mul_le (t : FpFormat) (g : Nat) : level t g * 2 ^ t.mb ≤ g :=
  le_trans (Nat.mul_le_mul_right _ (Nat.sub_le _ _)) (Nat.div_mul_le_self g _)

theorem level_add {t : FpFormat} {l n : Nat} (low : l = 0 ∨ 2 ^ t.mb ≤ n) (high : n < 2 ^ (t.mb + 1)) : level t (l * 2 ^ t.mb + n) = l := by
  have pos : 0 < 2 ^ t.mb := by positivity
  rw [pow_succ] at high
  rw [level, Nat.add_comm, Nat.add_mul_div_right _ _ pos]
  rcases low with rfl | low
  · have : n / 2 ^ t.mb < 2 := Nat.div_lt_of_lt_mul high
    omega
  · have : n / 2 ^ t.mb = 1 := Nat.div_eq_of_lt_le (by omega) (by omega)
    omega

/-- A mantissa of up to mb + 1 bits, and the carry out of it, at a level. -/
theorem magnitude_add {t : FpFormat} {l n : Nat} (low : l = 0 ∨ 2 ^ t.mb ≤ n) (high : n ≤ 2 ^ (t.mb + 1)) :
    magnitude t (l * 2 ^ t.mb + n) = n * 2 ^ l * leastUnit t := by
  rcases Nat.lt_or_ge n (2 ^ (t.mb + 1)) with inside | carry
  · rw [magnitude, level_add low inside, Nat.add_sub_cancel_left]
  · obtain rfl : n = 2 ^ (t.mb + 1) := le_antisymm high carry
    have shift : l * 2 ^ t.mb + 2 ^ (t.mb + 1) = (l + 1) * 2 ^ t.mb + 2 ^ t.mb := by ring
    have inside : 2 ^ t.mb < 2 ^ (t.mb + 1) := Nat.pow_lt_pow_right (by omega) (by omega)
    rw [shift, magnitude, level_add (.inr le_rfl) inside, Nat.add_sub_cancel_left]
    push_cast
    ring

/-- Every number is a mantissa at its level. -/
theorem level_split (t : FpFormat) (g : Nat) :
    ∃ n, g = level t g * 2 ^ t.mb + n ∧ (level t g = 0 ∨ 2 ^ t.mb ≤ n) ∧ n < 2 ^ (t.mb + 1) := by
  have le := level_mul_le t g
  have pos : 0 < 2 ^ t.mb := by positivity
  have split := Nat.div_add_mod g (2 ^ t.mb)
  have rest := Nat.mod_lt g pos
  have two : 2 ^ (t.mb + 1) = 2 ^ t.mb + 2 ^ t.mb := by ring
  generalize g % 2 ^ t.mb = r at split rest
  refine ⟨g - level t g * 2 ^ t.mb, by omega, ?_, ?_⟩
  · rcases Nat.eq_zero_or_pos (g / 2 ^ t.mb) with zero | above
    · exact .inl (by rw [level, zero])
    · refine .inr ?_
      obtain ⟨k, hk⟩ : ∃ k, g / 2 ^ t.mb = k + 1 := ⟨g / 2 ^ t.mb - 1, by omega⟩
      rw [hk, show 2 ^ t.mb * (k + 1) = k * 2 ^ t.mb + 2 ^ t.mb by ring] at split
      rw [level, hk, Nat.add_sub_cancel]
      omega
  · rcases Nat.eq_zero_or_pos (g / 2 ^ t.mb) with zero | above
    · rw [level, zero]
      rw [zero] at split
      omega
    · obtain ⟨k, hk⟩ : ∃ k, g / 2 ^ t.mb = k + 1 := ⟨g / 2 ^ t.mb - 1, by omega⟩
      rw [hk, show 2 ^ t.mb * (k + 1) = k * 2 ^ t.mb + 2 ^ t.mb by ring] at split
      rw [level, hk, Nat.add_sub_cancel]
      omega

/-- The step from a magnitude to the next. -/
theorem magnitude_succ (t : FpFormat) (g : Nat) : magnitude t (g + 1) = magnitude t g + 2 ^ level t g * leastUnit t := by
  obtain ⟨n, split, low, high⟩ := level_split t g
  have here : magnitude t g = n * 2 ^ level t g * leastUnit t := by
    conv_lhs => rw [split]
    exact magnitude_add low high.le
  have next : magnitude t (g + 1) = (n + 1 : Nat) * 2 ^ level t g * leastUnit t := by
    conv_lhs => rw [split, Nat.add_assoc]
    exact magnitude_add (low.imp_right fun h => h.trans (Nat.le_succ n)) high
  rw [here, next]
  push_cast
  ring

theorem magnitude_strictMono (t : FpFormat) : StrictMono (magnitude t) :=
  strictMono_nat_of_lt_succ fun g => by
    rw [magnitude_succ]
    have := leastUnit_pos t
    have : 0 < 2 ^ level t g * leastUnit t := by positivity
    linarith

theorem magnitude_zero (t : FpFormat) : magnitude t 0 = 0 := by simp [magnitude]

theorem magnitude_nonneg (t : FpFormat) (g : Nat) : 0 ≤ magnitude t g := by
  rw [← magnitude_zero t]
  exact (magnitude_strictMono t).monotone (Nat.zero_le g)

theorem zpow_natCast_sub (a : Nat) (b : ℤ) : (2 : ℝ) ^ ((a : ℤ) + b) = 2 ^ a * 2 ^ b := by
  rw [zpow_add₀ (by norm_num), zpow_natCast]

/-- The magnitude that overflows, and the largest finite one. -/
theorem magnitude_infinity {t : FpFormat} (ht : Ieee t) : magnitude t ((2 ^ t.eb - 1) * 2 ^ t.mb) = 2 ^ (t.bias + 1) := by
  have room := ht.room
  have split : (2 ^ t.eb - 1) * 2 ^ t.mb = 2 * t.bias * 2 ^ t.mb + 2 ^ t.mb := by
    rw [ht.exponents, show 2 * t.bias + 2 - 1 = 2 * t.bias + 1 by omega]
    ring
  have inside : 2 ^ t.mb ≤ 2 ^ (t.mb + 1) := Nat.pow_le_pow_right (by omega) (by omega)
  rw [split, magnitude_add (.inr le_rfl) inside, leastUnit]
  push_cast
  rw [← pow_add, ← zpow_natCast_sub, ← zpow_natCast (2 : ℝ) (t.bias + 1)]
  congr 1
  push_cast
  ring

theorem magnitude_largest {t : FpFormat} (ht : Ieee t) :
    magnitude t ((2 ^ t.eb - 1) * 2 ^ t.mb - 1) = 2 ^ (t.bias + 1) - 2 ^ (t.bias - t.mb) := by
  have room := ht.room
  have pos : 0 < 2 ^ t.mb := by positivity
  have two : 2 ^ (t.mb + 1) = 2 ^ t.mb + 2 ^ t.mb := by ring
  have split : (2 ^ t.eb - 1) * 2 ^ t.mb - 1 = (2 * t.bias - 1) * 2 ^ t.mb + (2 ^ (t.mb + 1) - 1) := by
    rw [ht.exponents, show 2 * t.bias + 2 - 1 = 2 * t.bias - 1 + 2 by omega]
    have : (2 * t.bias - 1 + 2) * 2 ^ t.mb = (2 * t.bias - 1) * 2 ^ t.mb + 2 ^ (t.mb + 1) := by ring
    omega
  have step := magnitude_succ t ((2 ^ t.eb - 1) * 2 ^ t.mb - 1)
  have next : (2 ^ t.eb - 1) * 2 ^ t.mb - 1 + 1 = (2 ^ t.eb - 1) * 2 ^ t.mb := by
    have : 0 < (2 ^ t.eb - 1) * 2 ^ t.mb := Nat.mul_pos (by rw [ht.exponents]; omega) pos
    omega
  rw [next, magnitude_infinity ht] at step
  have lev : level t ((2 ^ t.eb - 1) * 2 ^ t.mb - 1) = 2 * t.bias - 1 := by
    rw [split]
    exact level_add (.inr (by omega)) (by omega)
  have gap : (2 : ℝ) ^ level t ((2 ^ t.eb - 1) * 2 ^ t.mb - 1) * leastUnit t = 2 ^ (t.bias - t.mb) := by
    rw [lev, leastUnit, ← zpow_natCast_sub, ← zpow_natCast (2 : ℝ) (t.bias - t.mb)]
    congr 1
    omega
  rw [gap] at step
  linarith

/-! ### Bits and values -/

section
variable (t : FpFormat) (w : Nat)

theorem expOf_eq : t.expOf w = w % 2 ^ (t.eb + t.mb) / 2 ^ t.mb := by
  rw [FpFormat.expOf, Nat.add_comm, pow_add, Nat.mod_mul_right_div_self]

theorem fracOf_eq : t.fracOf w = w % 2 ^ (t.eb + t.mb) % 2 ^ t.mb := by
  rw [FpFormat.fracOf, Nat.mod_mod_of_dvd _ (pow_dvd_pow 2 (Nat.le_add_left _ _))]

theorem finite_iff : t.finite w = true ↔ w % 2 ^ (t.eb + t.mb) < (2 ^ t.eb - 1) * 2 ^ t.mb := by
  have pos : 0 < 2 ^ t.mb := by positivity
  have bound : t.expOf w < 2 ^ t.eb := Nat.mod_lt _ (by positivity)
  rw [← Nat.div_lt_iff_lt_mul pos, ← expOf_eq, FpFormat.finite, decide_eq_true_eq]
  omega

/-- The value of a finite number, its magnitude with its sign. -/
theorem value_eq : ((t.value w : ℚ) : ℝ) = (if t.neg w then -1 else 1) * magnitude t (w % 2 ^ (t.eb + t.mb)) := by
  have split := Nat.div_add_mod (w % 2 ^ (t.eb + t.mb)) (2 ^ t.mb)
  rw [← expOf_eq, ← fracOf_eq] at split
  have frac : t.fracOf w < 2 ^ t.mb := Nat.mod_lt _ (by positivity)
  have two : 2 ^ (t.mb + 1) = 2 ^ t.mb + 2 ^ t.mb := by ring
  have sign : (((if t.neg w then -1 else 1 : ℚ)) : ℝ) = if t.neg w then -1 else 1 := by split <;> simp
  rw [FpFormat.value, Rat.cast_mul, sign]
  congr 1
  rcases Nat.eq_zero_or_pos (t.expOf w) with zero | above
  · rw [if_pos zero, ← split, zero, Nat.mul_zero, ← Nat.zero_mul (2 ^ t.mb), magnitude_add (.inl rfl) (by omega), leastUnit]
    push_cast
    ring
  · obtain ⟨k, hk⟩ := Nat.exists_eq_add_of_le above
    have shift : 2 ^ t.mb * t.expOf w + t.fracOf w = k * 2 ^ t.mb + (2 ^ t.mb + t.fracOf w) := by
      rw [hk]
      ring
    have exp : ((t.expOf w : ℤ) - t.bias - t.mb) = (k : ℤ) + (1 - (t.bias : ℤ) - t.mb) := by omega
    rw [if_neg (by omega), ← split, shift, magnitude_add (.inr (by omega)) (by omega), leastUnit, exp]
    push_cast
    rw [zpow_natCast_sub]
    ring

end

end Sys2Proof.Proofs

/-! PROOFS. Rounding: the two neighbours of a value, which of them a direction takes, and that `roundFp` finds it (44 R570). -/

namespace Sys2Proof.Proofs

open Sys2Proof Sys2Proof.Machine

/-! ### The neighbours of a magnitude -/

/-- `y` lies from the magnitude with bits `g` up to, not with, the next. -/
def Between (t : FpFormat) (y : ℝ) (g : Nat) : Prop := magnitude t g ≤ y ∧ y < magnitude t (g + 1)

/-- Rounding in direction `rm` takes the upper neighbour of `y`, the lower one having bits `g`. -/
def GoesUp (t : FpFormat) (rm : BitVec 2) (sign : Bool) (y : ℝ) (g : Nat) : Prop :=
  (rm = 0 ∧ (magnitude t g + magnitude t (g + 1) < 2 * y ∨ (magnitude t g + magnitude t (g + 1) = 2 * y ∧ g % 2 = 1))) ∨
    (rm = 2 ∧ sign = false ∧ y ≠ magnitude t g) ∨ (rm = 3 ∧ sign = true ∧ y ≠ magnitude t g)

/-- The magnitude `y`, of a number of that sign, rounds to the magnitude with bits `g`, were there no largest one. -/
def RoundsTo (t : FpFormat) (rm : BitVec 2) (sign : Bool) (y : ℝ) (g : Nat) : Prop :=
  ∃ low, Between t y low ∧ (GoesUp t rm sign y low ∧ g = low + 1 ∨ ¬GoesUp t rm sign y low ∧ g = low)

theorem Between.le {t : FpFormat} {y : ℝ} {g k : Nat} (h : Between t y g) (hk : k ≤ g) : magnitude t k ≤ magnitude t g ∧ magnitude t k ≤ y :=
  have mono := (magnitude_strictMono t).monotone hk
  ⟨mono, mono.trans h.1⟩

theorem Between.ge {t : FpFormat} {y : ℝ} {g k : Nat} (h : Between t y g) (hk : g < k) :
    magnitude t (g + 1) ≤ magnitude t k ∧ y < magnitude t k :=
  have mono := (magnitude_strictMono t).monotone (Nat.succ_le_of_lt hk)
  ⟨mono, h.2.trans_le mono⟩

/-- A number of the format is its own lower neighbour. -/
theorem between_magnitude (t : FpFormat) (g : Nat) : Between t (magnitude t g) g := ⟨le_rfl, magnitude_strictMono t (Nat.lt_succ_self g)⟩

theorem not_goesUp_magnitude (t : FpFormat) (rm : BitVec 2) (sign : Bool) (g : Nat) : ¬GoesUp t rm sign (magnitude t g) g := by
  have gap := magnitude_strictMono t (Nat.lt_succ_self g)
  rintro (⟨-, above | ⟨middle, -⟩⟩ | ⟨-, -, ne⟩ | ⟨-, -, ne⟩)
  · linarith
  · linarith
  · exact ne rfl
  · exact ne rfl

theorem roundsTo_magnitude (t : FpFormat) (rm : BitVec 2) (sign : Bool) (g : Nat) : RoundsTo t rm sign (magnitude t g) g :=
  ⟨g, between_magnitude t g, .inr ⟨not_goesUp_magnitude t rm sign g, rfl⟩⟩

/-- A value rounds to itself exactly where its lower neighbour is itself. -/
theorem goesUp_ne {t : FpFormat} {rm : BitVec 2} {sign : Bool} {y : ℝ} {g : Nat} (up : GoesUp t rm sign y g) : y ≠ magnitude t g := by
  rintro rfl
  exact not_goesUp_magnitude t rm sign g up

/-! ### What rounding does in each direction -/

section
variable {t : FpFormat} {rm : BitVec 2} {sign : Bool} {y : ℝ} {g : Nat}

/-- The direction leads away from zero. -/
def Outward (rm : BitVec 2) (sign : Bool) : Prop := (rm = 2 ∧ sign = false) ∨ (rm = 3 ∧ sign = true)

theorem RoundsTo.nearest (h : RoundsTo t 0 sign y g) (k : Nat) :
    |magnitude t g - y| ≤ |magnitude t k - y| ∧ (|magnitude t g - y| = |magnitude t k - y| → k ≠ g → g % 2 = 0) := by
  obtain ⟨low, between, ⟨up, rfl⟩ | ⟨down, rfl⟩⟩ := h
  · have above : magnitude t low + magnitude t (low + 1) ≤ 2 * y ∧ (magnitude t low + magnitude t (low + 1) = 2 * y → low % 2 = 1) := by
      rcases up with ⟨-, more | ⟨middle, odd⟩⟩ | ⟨two, -⟩ | ⟨three, -⟩
      · exact ⟨more.le, fun eq => absurd eq more.ne⟩
      · exact ⟨middle.le, fun _ => odd⟩
      · exact absurd two (by decide)
      · exact absurd three (by decide)
    obtain ⟨half, tie⟩ := above
    rw [abs_of_pos (sub_pos.2 between.2)]
    rcases Nat.lt_or_ge low k with beyond | within
    · obtain ⟨ge, pos⟩ := between.ge beyond
      rw [abs_of_pos (sub_pos.2 pos)]
      refine ⟨by linarith, fun eq ne => absurd ((magnitude_strictMono t).injective (by linarith)) ne⟩
    · obtain ⟨le, neg⟩ := between.le within
      rw [abs_of_nonpos (sub_nonpos.2 neg)]
      refine ⟨by linarith, fun eq _ => ?_⟩
      have := tie (by linarith)
      omega
  · have below : 2 * y ≤ magnitude t g + magnitude t (g + 1) ∧ (magnitude t g + magnitude t (g + 1) = 2 * y → g % 2 = 0) := by
      unfold GoesUp at down
      push Not at down
      obtain ⟨nearest, -⟩ := down
      obtain ⟨le, tie⟩ := nearest rfl
      exact ⟨le, fun eq => by have := tie eq; omega⟩
    obtain ⟨half, tie⟩ := below
    rw [abs_of_nonpos (sub_nonpos.2 between.1)]
    rcases Nat.lt_or_ge g k with beyond | within
    · obtain ⟨ge, pos⟩ := between.ge beyond
      rw [abs_of_pos (sub_pos.2 pos)]
      exact ⟨by linarith, fun eq _ => tie (by linarith)⟩
    · obtain ⟨le, neg⟩ := between.le within
      rw [abs_of_nonpos (sub_nonpos.2 neg)]
      refine ⟨by linarith, fun eq ne => absurd ((magnitude_strictMono t).injective (by linarith)) ne⟩

theorem RoundsTo.inward (h : RoundsTo t rm sign y g) (near : rm ≠ 0) (inward : ¬Outward rm sign) :
    magnitude t g ≤ y ∧ ∀ k, magnitude t k ≤ y → magnitude t k ≤ magnitude t g := by
  obtain ⟨low, between, ⟨up, rfl⟩ | ⟨down, rfl⟩⟩ := h
  · rcases up with ⟨zero, -⟩ | ⟨two, pos, -⟩ | ⟨three, neg, -⟩
    · exact absurd zero near
    · exact absurd (.inl ⟨two, pos⟩) inward
    · exact absurd (.inr ⟨three, neg⟩) inward
  · refine ⟨between.1, fun k hk => ?_⟩
    rcases Nat.lt_or_ge g k with beyond | within
    · exact absurd hk (not_le.2 (between.ge beyond).2)
    · exact (between.le within).1

theorem RoundsTo.outward (h : RoundsTo t rm sign y g) (outward : Outward rm sign) :
    y ≤ magnitude t g ∧ ∀ k, y ≤ magnitude t k → magnitude t g ≤ magnitude t k := by
  obtain ⟨low, between, ⟨up, rfl⟩ | ⟨down, rfl⟩⟩ := h
  · refine ⟨between.2.le, fun k hk => ?_⟩
    rcases Nat.lt_or_ge low k with beyond | within
    · exact (between.ge beyond).1
    · exact absurd (le_antisymm (hk.trans (between.le within).1) between.1) (goesUp_ne up)
  · have exact' : y = magnitude t g := by
      by_contra ne
      exact down (outward.elim (fun h => .inr (.inl ⟨h.1, h.2, ne⟩)) fun h => .inr (.inr ⟨h.1, h.2, ne⟩))
    exact ⟨exact'.le, fun k hk => exact' ▸ hk⟩

/-- How far rounding moves a value: less than the gap it lies in. -/
theorem RoundsTo.error (h : RoundsTo t rm sign y g) :
    ∃ low, Between t y low ∧ |magnitude t g - y| < magnitude t (low + 1) - magnitude t low ∧
      (rm = 0 → 2 * |magnitude t g - y| ≤ magnitude t (low + 1) - magnitude t low) := by
  have nearest (zero : rm = 0) (k : Nat) : |magnitude t g - y| ≤ |magnitude t k - y| := by
    subst zero
    exact (h.nearest k).1
  obtain ⟨low, between, step⟩ := h
  refine ⟨low, between, ?_, fun zero => ?_⟩
  · rcases step with ⟨up, rfl⟩ | ⟨down, rfl⟩
    · have := lt_of_le_of_ne between.1 (goesUp_ne up).symm
      rw [abs_of_pos (sub_pos.2 between.2)]
      linarith
    · have := between.2
      rw [abs_of_nonpos (sub_nonpos.2 between.1)]
      linarith
  · have atLow := nearest zero low
    have atHigh := nearest zero (low + 1)
    rw [abs_of_nonpos (sub_nonpos.2 between.1)] at atLow
    rw [abs_of_pos (sub_pos.2 between.2)] at atHigh
    linarith

end

/-! ### Overflow -/

/-- A number of that sign and magnitude. -/
def withSign (sign : Bool) (y : ℝ) : ℝ := if sign then -y else y

theorem abs_withSign (sign : Bool) {y : ℝ} (hy : 0 ≤ y) : |withSign sign y| = y := by
  cases sign
  · exact abs_of_nonneg hy
  · exact (abs_neg y).trans (abs_of_nonneg hy)

/-- The bits, without the sign, of infinity. -/
def infinityMag (t : FpFormat) : Nat := (2 ^ t.eb - 1) * 2 ^ t.mb

theorem infinityMag_even {t : FpFormat} (ht : Ieee t) : infinityMag t % 2 = 0 ∧ 0 < infinityMag t := by
  have room := ht.fraction
  obtain ⟨k, hk⟩ := Nat.exists_eq_add_of_le ht.fraction
  have pos : 0 < 2 ^ k := by positivity
  have split : infinityMag t = 2 * ((2 * t.bias + 1) * 2 ^ k) := by
    rw [infinityMag, ht.exponents, hk, pow_add, show 2 * t.bias + 2 - 1 = 2 * t.bias + 1 by omega]
    ring
  have : 0 < (2 * t.bias + 1) * 2 ^ k := by positivity
  omega

theorem Between.le_of_magnitude_le {t : FpFormat} {y : ℝ} {low k : Nat} (h : Between t y low) (hk : magnitude t k ≤ y) : k ≤ low := by
  by_contra beyond
  exact absurd hk (not_le.2 (h.ge (not_le.1 beyond)).2)

/-- In nearest mode the numbers from half-way between the largest finite one and 2^(bias+1) on overflow. -/
theorem magnitude_half {t : FpFormat} (ht : Ieee t) :
    magnitude t (infinityMag t - 1) + magnitude t (infinityMag t) = 2 * (2 ^ (t.bias + 1) - 2 ^ (t.bias - t.mb - 1)) := by
  have room := ht.room
  have half : (2 : ℝ) ^ (t.bias - t.mb) = 2 * 2 ^ (t.bias - t.mb - 1) := by
    rw [← pow_succ', Nat.sub_add_cancel (by omega)]
  rw [infinityMag, magnitude_largest ht, magnitude_infinity ht, half]
  ring

/-- A magnitude rounds past the largest finite number exactly where 44 R570 says that it overflows. -/
theorem RoundsTo.overflows_iff {t : FpFormat} (ht : Ieee t) {rm : BitVec 2} {sign : Bool} {y : ℝ} {g : Nat} (hy : 0 ≤ y)
    (h : RoundsTo t rm sign y g) : infinityMag t ≤ g ↔ Overflows t rm (withSign sign y) := by
  obtain ⟨even, pos⟩ := infinityMag_even ht
  have half := magnitude_half ht
  have infinity : magnitude t (infinityMag t) = 2 ^ (t.bias + 1) := magnitude_infinity ht
  have largest : magnitude t (infinityMag t - 1) = 2 ^ (t.bias + 1) - 2 ^ (t.bias - t.mb) := magnitude_largest ht
  obtain ⟨low, between, step⟩ := h
  unfold Overflows
  rw [← infinity] at half largest
  rw [abs_withSign sign hy, ← infinity]
  rcases le_or_gt (magnitude t (infinityMag t)) y with beyond | within
  · have := between.le_of_magnitude_le beyond
    refine iff_of_true ?_ (.inl beyond)
    rcases step with ⟨-, rfl⟩ | ⟨-, rfl⟩
    · omega
    · exact this
  · have low_lt : low < infinityMag t := (magnitude_strictMono t).lt_iff_lt.1 (between.1.trans_lt within)
    have last : infinityMag t - 1 + 1 = infinityMag t := by omega
    constructor
    · intro reach
      rcases step with ⟨up, rfl⟩ | ⟨-, rfl⟩
      · obtain rfl : low = infinityMag t - 1 := by omega
        rw [GoesUp, last] at up
        have strict (ne : y ≠ magnitude t (infinityMag t - 1)) : magnitude t (infinityMag t - 1) < y := lt_of_le_of_ne between.1 ne.symm
        have some' := magnitude_nonneg t (infinityMag t - 1)
        rcases up with ⟨zero, more | ⟨middle, -⟩⟩ | ⟨two, positive, ne⟩ | ⟨three, negative, ne⟩
        · exact .inr (.inl ⟨zero, by linarith⟩)
        · exact .inr (.inl ⟨zero, by linarith⟩)
        · subst positive
          have := strict ne
          refine .inr (.inr ⟨.inl ⟨two, ?_⟩, by linarith⟩)
          exact some'.trans_lt this
        · subst negative
          have := strict ne
          refine .inr (.inr ⟨.inr ⟨three, ?_⟩, by linarith⟩)
          exact neg_lt_zero.2 (some'.trans_lt this)
      · omega
    · have reached (up : low = infinityMag t - 1 → GoesUp t rm sign y low) (near : magnitude t (infinityMag t - 1) ≤ y) :
          infinityMag t ≤ g := by
        have at' : low = infinityMag t - 1 := by
          have := between.le_of_magnitude_le near
          omega
        rcases step with ⟨-, rfl⟩ | ⟨down, rfl⟩
        · omega
        · exact absurd (up at') down
      have gap := magnitude_strictMono t (show infinityMag t - 1 < infinityMag t by omega)
      rintro (beyond | ⟨zero, middle⟩ | ⟨outward, above⟩)
      · exact absurd beyond (not_le.2 within)
      · refine reached (fun at' => .inl ⟨zero, ?_⟩) (by linarith)
        rw [at', last]
        rcases (show magnitude t (infinityMag t - 1) + magnitude t (infinityMag t) ≤ 2 * y by linarith).lt_or_eq with more | eq
        · exact .inl more
        · exact .inr ⟨eq, by omega⟩
      · have ne : low = infinityMag t - 1 → y ≠ magnitude t low := by
          rintro rfl
          exact ne_of_gt (by linarith)
        refine reached (fun at' => .inr ?_) (by linarith)
        rcases outward with ⟨two, positive⟩ | ⟨three, negative⟩
        · refine .inl ⟨two, ?_, ne at'⟩
          cases sign
          · rfl
          · exact absurd positive (not_lt.2 (neg_nonpos.2 hy))
        · refine .inr ⟨three, ?_, ne at'⟩
          cases sign
          · exact absurd negative (not_lt.2 hy)
          · rfl

/-! ### The bits of a result -/

section
variable {t : FpFormat} {g : Nat} (hg : g < 2 ^ (t.eb + t.mb)) (sign : Bool)
include hg

theorem signed_bits_lt : signBit t sign + g < 2 ^ (1 + t.eb + t.mb) := by
  have double : 2 ^ (1 + t.eb + t.mb) = 2 * 2 ^ (t.eb + t.mb) := by ring
  unfold signBit
  split <;> omega

theorem neg_signed : t.neg (signBit t sign + g) = sign := by
  have pos : 0 < 2 ^ (t.eb + t.mb) := by positivity
  unfold FpFormat.neg signBit
  cases sign
  · rw [if_neg Bool.false_ne_true, Nat.zero_add, Nat.div_eq_of_lt hg]
    rfl
  · rw [if_pos rfl, Nat.add_div_left _ pos, Nat.div_eq_of_lt hg]
    rfl

theorem magBits_signed : (signBit t sign + g) % 2 ^ (t.eb + t.mb) = g := by
  unfold signBit
  split
  · rw [Nat.add_mod_left, Nat.mod_eq_of_lt hg]
  · rw [Nat.zero_add, Nat.mod_eq_of_lt hg]

theorem value_signed : ((t.value (signBit t sign + g) : ℚ) : ℝ) = withSign sign (magnitude t g) := by
  rw [value_eq, neg_signed hg, magBits_signed hg]
  cases sign <;> simp [withSign]

theorem finite_signed : t.finite (signBit t sign + g) = true ↔ g < infinityMag t := by
  rw [finite_iff, magBits_signed hg]
  rfl

end

theorem infinityMag_lt (t : FpFormat) : infinityMag t < 2 ^ (t.eb + t.mb) := by
  have pos : 0 < 2 ^ t.mb := by positivity
  have pos' : 0 < 2 ^ t.eb := by positivity
  rw [infinityMag, pow_add]
  exact Nat.mul_lt_mul_of_pos_right (by omega) pos

end Sys2Proof.Proofs

/-! PROOFS. A rounded result meets 44 R570, and `roundFp` gives one. -/

namespace Sys2Proof.Proofs

open Sys2Proof Sys2Proof.Machine

/-! ### A rounded result -/

theorem exceptions_bits (r : FpResult) (tem : BitVec 5) :
    (r.exceptions tem).getLsbD 4 = r.nv ∧ (r.exceptions tem).getLsbD 3 = r.ovf ∧
      (r.exceptions tem).getLsbD 2 = (r.tiny && (r.nx || tem.getLsbD 2)) ∧ (r.exceptions tem).getLsbD 1 = r.dz ∧
      (r.exceptions tem).getLsbD 0 = r.nx := by
  unfold FpResult.exceptions
  generalize (r.tiny && (r.nx || tem.getLsbD 2)) = uf
  cases r.nv <;> cases r.ovf <;> cases uf <;> cases r.dz <;> cases r.nx <;> simp [b1]

/-- The bits, without the sign, that are delivered for the magnitude with bits `g`: on overflow infinity or the largest number. -/
def delivered (t : FpFormat) (rm : BitVec 2) (sign : Bool) (g : Nat) : Nat :=
  if infinityMag t ≤ g then (if overflowToInf rm sign then infinityMag t else infinityMag t - 1) else g

/-- `r` is the magnitude `y`, of a number of that sign, rounded. -/
def IsRounded (t : FpFormat) (rm : BitVec 2) (sign : Bool) (y : ℝ) (r : FpResult) : Prop :=
  ∃ g, RoundsTo t rm sign y g ∧ r.bits = signBit t sign + delivered t rm sign g ∧ r.nv = false ∧ r.dz = false ∧
    (r.ovf = true ↔ infinityMag t ≤ g) ∧ (r.nx = true ↔ infinityMag t ≤ g ∨ y ≠ magnitude t g) ∧
    (r.tiny = true ↔ y ≠ 0 ∧ y < 2 ^ (1 - (t.bias : ℤ)))

theorem delivered_le (t : FpFormat) (rm : BitVec 2) (sign : Bool) (g : Nat) : delivered t rm sign g ≤ infinityMag t := by
  unfold delivered
  split
  · split
    · exact le_rfl
    · exact Nat.sub_le _ _
  · omega

theorem delivered_lt (t : FpFormat) (rm : BitVec 2) (sign : Bool) (g : Nat) : delivered t rm sign g < 2 ^ (t.eb + t.mb) :=
  (delivered_le t rm sign g).trans_lt (infinityMag_lt t)

theorem withSign_neg_iff {sign : Bool} {y : ℝ} (hy : 0 ≤ y) {zeroNeg : Bool} (hz : y = 0 → sign = zeroNeg) :
    sign = true ↔ withSign sign y < 0 ∨ (withSign sign y = 0 ∧ zeroNeg = true) := by
  rcases hy.eq_or_lt with rfl | pos
  · rw [hz rfl]
    cases zeroNeg <;> simp [withSign]
  · cases sign
    · simp [withSign, pos.ne', not_lt.2 hy]
    · simp [withSign, pos]

/-- Whether an overflow goes to infinity (44 R570). -/
theorem overflowToInf_iff {rm : BitVec 2} {sign : Bool} {y : ℝ} (hy : 0 < y) :
    overflowToInf rm sign = true ↔ rm = 0 ∨ (rm = 2 ∧ 0 < withSign sign y) ∨ (rm = 3 ∧ withSign sign y < 0) := by
  cases sign
  · simp [overflowToInf, withSign, hy, not_lt.2 hy.le]
  · simp [overflowToInf, withSign, hy, not_lt.2 hy.le]

theorem infinityMag_div (t : FpFormat) : infinityMag t / 2 ^ t.mb = 2 ^ t.eb - 1 ∧ infinityMag t % 2 ^ t.mb = 0 :=
  ⟨Nat.mul_div_cancel _ (by positivity), Nat.mul_mod_left _ _⟩

theorem largestMag_div {t : FpFormat} (ht : Ieee t) :
    (infinityMag t - 1) / 2 ^ t.mb = 2 ^ t.eb - 2 ∧ (infinityMag t - 1) % 2 ^ t.mb = 2 ^ t.mb - 1 := by
  have pos : 0 < 2 ^ t.mb := by positivity
  have split : infinityMag t - 1 = 2 ^ t.mb - 1 + 2 ^ t.mb * (2 ^ t.eb - 2) := by
    have := ht.exponents
    have again : (2 ^ t.eb - 1) * 2 ^ t.mb = 2 ^ t.mb * (2 ^ t.eb - 2) + 2 ^ t.mb := by
      rw [show 2 ^ t.eb - 1 = 2 ^ t.eb - 2 + 1 by omega]
      ring
    rw [infinityMag, again]
    omega
  rw [split]
  refine ⟨?_, ?_⟩
  · rw [Nat.add_mul_div_left _ _ pos, Nat.div_eq_of_lt (by omega), Nat.zero_add]
  · rw [Nat.add_mul_mod_self_left, Nat.mod_eq_of_lt (by omega)]

section
variable {t : FpFormat} (ht : Ieee t) {rm : BitVec 2} {sign : Bool} {y : ℝ} (hy : 0 ≤ y)

include ht in
/-- The number delivered on overflow. -/
theorem delivered_overflow {g : Nat} (beyond : infinityMag t ≤ g) :
    if overflowToInf rm sign = true then t.infinite (signBit t sign + delivered t rm sign g) = true
      else t.expOf (signBit t sign + delivered t rm sign g) = 2 ^ t.eb - 2 ∧
        t.fracOf (signBit t sign + delivered t rm sign g) = 2 ^ t.mb - 1 := by
  have low := delivered_lt t rm sign g
  rw [FpFormat.infinite, expOf_eq, fracOf_eq, magBits_signed low]
  unfold delivered
  rw [if_pos beyond]
  split
  · obtain ⟨div, mod⟩ := infinityMag_div t
    simp [div, mod]
  · exact largestMag_div ht

theorem withSign_sub (sign : Bool) (a b : ℝ) : withSign sign a - withSign sign b = withSign sign (a - b) := by
  cases sign
  · rfl
  · simp only [withSign, if_true]
    ring

theorem abs_withSign_sub (sign : Bool) (a b : ℝ) : |withSign sign a - withSign sign b| = |a - b| := by
  rw [withSign_sub]
  cases sign
  · rfl
  · exact abs_neg _

theorem withSign_not (sign : Bool) (a : ℝ) : withSign (!sign) a = -withSign sign a := by
  cases sign
  · rfl
  · exact (neg_neg a).symm

/-- Numbers of opposite signs are as far apart as their magnitudes together. -/
theorem abs_withSign_not_sub (sign : Bool) {a b : ℝ} (ha : 0 ≤ a) (hb : 0 ≤ b) : |withSign (!sign) a - withSign sign b| = a + b := by
  have sum : withSign (!sign) a - withSign sign b = -withSign sign (a + b) := by
    cases sign
    · simp only [withSign, Bool.not_false, if_true, Bool.false_eq_true, if_false]
      ring
    · simp only [withSign, Bool.not_true, if_true, Bool.false_eq_true, if_false]
      ring
  rw [sum, abs_neg, abs_withSign sign (add_nonneg ha hb)]

theorem withSign_inj (sign : Bool) {a b : ℝ} : withSign sign a = withSign sign b ↔ a = b := by
  cases sign
  · exact Iff.rfl
  · exact neg_inj

include ht in
theorem signed_bits_even (g : Nat) : (signBit t sign + g) % 2 = g % 2 := by
  have fraction := ht.fraction
  obtain ⟨k, hk⟩ : ∃ k, t.eb + t.mb = k + 1 := ⟨t.eb + t.mb - 1, by omega⟩
  rw [signBit, hk, pow_succ]
  split <;> omega

/-- A number of the format rounds to itself. -/
theorem RoundsTo.eq_of_magnitude {k g : Nat} (h : RoundsTo t rm sign (magnitude t k) g) : g = k := by
  have mono := magnitude_strictMono t
  obtain ⟨low, ⟨le, lt⟩, step⟩ := h
  obtain rfl : low = k := le_antisymm (mono.le_iff_le.1 le) (Nat.lt_succ_iff.1 (mono.lt_iff_lt.1 lt))
  rcases step with ⟨up, -⟩ | ⟨-, rfl⟩
  · exact absurd up (not_goesUp_magnitude t rm sign low)
  · rfl

include hy

/-- In nearest mode no number of either sign is nearer, and of two as near the even one is taken. -/
theorem rounds_nearest {g : Nat} (h : RoundsTo t 0 sign y g) (b : Bool) (k : Nat) :
    |withSign sign (magnitude t g) - withSign sign y| ≤ |withSign b (magnitude t k) - withSign sign y| ∧
      (|withSign sign (magnitude t g) - withSign sign y| = |withSign b (magnitude t k) - withSign sign y| →
        withSign b (magnitude t k) ≠ withSign sign (magnitude t g) → g % 2 = 0) := by
  have same := h.nearest k
  have origin := h.nearest 0
  have nonneg := magnitude_nonneg t k
  rw [magnitude_zero, zero_sub, abs_neg, abs_of_nonneg hy] at origin
  rw [abs_withSign_sub]
  rcases (Bool.eq_or_eq_not b sign) with rfl | rfl
  · rw [abs_withSign_sub]
    exact ⟨same.1, fun eq ne => same.2 eq fun hk => ne (hk ▸ rfl)⟩
  · rw [abs_withSign_not_sub sign nonneg hy]
    refine ⟨by linarith [origin.1], fun eq ne => ?_⟩
    have zero : magnitude t k = 0 := by linarith [origin.1]
    rcases Nat.eq_zero_or_pos g with rfl | pos
    · exact Nat.zero_mod 2
    · exact origin.2 (by linarith) (by omega)

/-- Toward zero the magnitude is the largest not beyond. -/
theorem rounds_inward {g : Nat} (h : RoundsTo t rm sign y g) (near : rm ≠ 0) (inward : ¬Outward rm sign) (b : Bool) (k : Nat) :
    |withSign sign (magnitude t g)| ≤ |withSign sign y| ∧
      (|withSign b (magnitude t k)| ≤ |withSign sign y| → |withSign b (magnitude t k)| ≤ |withSign sign (magnitude t g)|) := by
  rw [abs_withSign _ hy, abs_withSign _ (magnitude_nonneg t g), abs_withSign _ (magnitude_nonneg t k)]
  obtain ⟨le, greatest⟩ := h.inward near inward
  exact ⟨le, greatest k⟩

/-- Upwards the number is the least one not below. -/
theorem rounds_upward {g : Nat} (h : RoundsTo t 2 sign y g) (b : Bool) (k : Nat) :
    withSign sign y ≤ withSign sign (magnitude t g) ∧
      (withSign sign y ≤ withSign b (magnitude t k) → withSign sign (magnitude t g) ≤ withSign b (magnitude t k)) := by
  have hg := magnitude_nonneg t g
  have hk := magnitude_nonneg t k
  cases sign
  · obtain ⟨le, least⟩ := h.outward (.inl ⟨rfl, rfl⟩)
    refine ⟨le, fun above => ?_⟩
    cases b
    · exact least k above
    · simp only [withSign, if_true, Bool.false_eq_true, if_false] at above ⊢
      have := least k (by linarith)
      linarith
  · obtain ⟨le, greatest⟩ := h.inward (by decide) (by simp [Outward])
    refine ⟨neg_le_neg le, fun above => ?_⟩
    cases b
    · simp only [withSign, if_true, Bool.false_eq_true, if_false]
      linarith
    · exact neg_le_neg (greatest k (neg_le_neg_iff.1 above))

/-- Downwards the number is the greatest one not above. -/
theorem rounds_downward {g : Nat} (h : RoundsTo t 3 sign y g) (b : Bool) (k : Nat) :
    withSign sign (magnitude t g) ≤ withSign sign y ∧
      (withSign b (magnitude t k) ≤ withSign sign y → withSign b (magnitude t k) ≤ withSign sign (magnitude t g)) := by
  have hg := magnitude_nonneg t g
  have hk := magnitude_nonneg t k
  cases sign
  · obtain ⟨le, greatest⟩ := h.inward (by decide) (by simp [Outward])
    refine ⟨le, fun below => ?_⟩
    cases b
    · exact greatest k below
    · simp only [withSign, if_true, Bool.false_eq_true, if_false]
      linarith
  · obtain ⟨le, least⟩ := h.outward (.inr ⟨rfl, rfl⟩)
    refine ⟨neg_le_neg le, fun below => ?_⟩
    cases b
    · simp only [withSign, if_true, Bool.false_eq_true, if_false] at below ⊢
      have := least k (by linarith)
      linarith
    · exact neg_le_neg (least k (neg_le_neg_iff.1 below))

include ht

/-- A rounded result meets 44 R570. -/
theorem IsRounded.rounds {r : FpResult} (h : IsRounded t rm sign y r) {zeroNeg : Bool} (hz : y = 0 → sign = zeroNeg) (tem : BitVec 5) :
    Rounds t rm (tem.getLsbD 2) (withSign sign y) zeroNeg r.bits (r.exceptions tem) := by
  obtain ⟨g, rounded, bits, nv, dz, ovf, nx, tiny⟩ := h
  obtain ⟨nvBit, ovfBit, ufBit, dzBit, nxBit⟩ := exceptions_bits r tem
  have low := delivered_lt t rm sign g
  have overflow := rounded.overflows_iff ht hy
  rw [Rounds, nvBit, ovfBit, ufBit, dzBit, nxBit, bits, neg_signed low]
  have zero_iff : withSign sign y ≠ 0 ↔ y ≠ 0 := by cases sign <;> simp [withSign]
  refine ⟨signed_bits_lt low sign, withSign_neg_iff hy hz, nv, dz, ovf.trans overflow, ?_, fun beyond => ⟨?_, ?_⟩, fun within => ?_⟩
  · rw [Bool.and_eq_true, Bool.or_eq_true, tiny, zero_iff, abs_withSign sign hy, and_assoc]
  · exact nx.2 (.inl (overflow.2 beyond))
  · have reach := overflow.2 beyond
    have pos : 0 < y := by
      refine hy.lt_of_ne fun zero => ?_
      rw [← zero, ← magnitude_zero t] at rounded
      have := rounded.eq_of_magnitude
      have := (infinityMag_even ht).2
      omega
    have spec := delivered_overflow ht (rm := rm) (sign := sign) reach
    by_cases infinite : overflowToInf rm sign = true
    · rw [if_pos infinite] at spec
      rwa [if_pos ((overflowToInf_iff pos).1 infinite)]
    · rw [if_neg infinite] at spec
      rwa [if_neg (mt (overflowToInf_iff pos).2 infinite)]
  · have inside : ¬infinityMag t ≤ g := mt overflow.1 within
    have same : delivered t rm sign g = g := if_neg inside
    rw [same] at low ⊢
    rw [value_signed low, signed_bits_even ht]
    refine ⟨(finite_signed low sign).2 (not_le.1 inside), ?_, fun v hv _ => ?_⟩
    · rw [nx, or_iff_right inside]
      exact (withSign_inj sign).not.symm.trans (not_congr eq_comm)
    · have other : ((t.value v : ℚ) : ℝ) = withSign (t.neg v) (magnitude t (v % 2 ^ (t.eb + t.mb))) := by
        rw [value_eq]
        cases t.neg v <;> simp [withSign]
      simp only [other]
      refine ⟨?_, ?_, ?_, ?_⟩
      · rintro rfl
        exact rounds_nearest hy rounded _ _
      · rintro rfl
        exact rounds_inward hy rounded (by decide) (by simp [Outward]) _ _
      · rintro rfl
        exact rounds_upward hy rounded _ _
      · rintro rfl
        exact rounds_downward hy rounded _ _

end

/-! ### What `roundFp` computes -/

/-- The exponent of the last place kept, its level, and the mantissa above, the bits below, and half a unit of the last place. -/
def lastPlace (t : FpFormat) (m : Nat) (e : ℤ) : ℤ := max ((Nat.log2 m : ℤ) + e - t.mb) (1 - (t.bias : ℤ) - t.mb)
def lastLevel (t : FpFormat) (m : Nat) (e : ℤ) : Nat := (lastPlace t m e - (1 - (t.bias : ℤ) - t.mb)).toNat
def keptBits (t : FpFormat) (m : Nat) (e : ℤ) : Nat :=
  if lastPlace t m e ≤ e then m * 2 ^ (e - lastPlace t m e).toNat else m >>> (lastPlace t m e - e).toNat
def restBits (t : FpFormat) (m : Nat) (e : ℤ) : Nat := if lastPlace t m e ≤ e then 0 else m % 2 ^ (lastPlace t m e - e).toNat
def halfBits (t : FpFormat) (m : Nat) (e : ℤ) : Nat := if lastPlace t m e ≤ e then 1 else 2 ^ ((lastPlace t m e - e).toNat - 1)

/-- The bits of the lower neighbour. -/
def lowBits (t : FpFormat) (m : Nat) (e : ℤ) : Nat := lastLevel t m e * 2 ^ t.mb + keptBits t m e

/-- `y` is `m * 2^e`, or with `sticky` it lies between that and `(m + 1) * 2^e`, which is below the last place. -/
def Denotes (t : FpFormat) (m : Nat) (e : ℤ) (sticky : Bool) (y : ℝ) : Prop :=
  (sticky = false → y = m * 2 ^ e) ∧ (sticky = true → 2 ^ (t.mb + 1) ≤ m ∧ m * 2 ^ e < y ∧ y < (m + 1) * 2 ^ e)

theorem roundFp_eq (t : FpFormat) (rm : BitVec 2) (sign : Bool) {m : Nat} (hm : m ≠ 0) (e : ℤ) (sticky : Bool) :
    roundFp t rm sign m e sticky =
      let g := lowBits t m e +
        (roundsUp rm sign (decide (keptBits t m e % 2 = 1)) (restBits t m e) (halfBits t m e) sticky).toNat
      let tiny := decide ((Nat.log2 m : ℤ) + e < 1 - (t.bias : ℤ))
      if infinityMag t ≤ g then
        { bits := if overflowToInf rm sign then infBits t sign else maxBits t sign, ovf := true, nx := true, tiny := tiny }
      else
        { bits := signBit t sign + g, nx := restBits t m e ≠ 0 || sticky, tiny := tiny, sub := decide (g < 2 ^ t.mb) && g ≠ 0 } := by
  rw [roundFp, if_neg hm]
  simp only [lowBits, Nat.add_assoc]
  rfl

section
variable {t : FpFormat} {m : Nat} (hm : m ≠ 0) (e : ℤ)

theorem lastLevel_cast (t : FpFormat) (m : Nat) (e : ℤ) : (lastLevel t m e : ℤ) = lastPlace t m e - (1 - (t.bias : ℤ) - t.mb) :=
  Int.toNat_of_nonneg (by unfold lastPlace; omega)

/-- A unit of the last place. -/
theorem gap_eq (t : FpFormat) (m : Nat) (e : ℤ) : (2 : ℝ) ^ lastLevel t m e * leastUnit t = 2 ^ lastPlace t m e := by
  rw [leastUnit, ← zpow_natCast_sub, lastLevel_cast]
  congr 1
  omega

include hm in
/-- The mantissa kept has mb + 1 bits, or fewer at the lowest level. -/
theorem keptBits_bounds : (lastLevel t m e = 0 ∨ 2 ^ t.mb ≤ keptBits t m e) ∧ keptBits t m e < 2 ^ (t.mb + 1) := by
  have least := Nat.log2_self_le hm
  have most := Nat.lt_log2_self (n := m)
  have level := lastLevel_cast t m e
  have place : lastPlace t m e = max ((Nat.log2 m : ℤ) + e - t.mb) (1 - (t.bias : ℤ) - t.mb) := rfl
  unfold keptBits
  split
  · next shift =>
    constructor
    · refine or_iff_not_imp_left.2 fun above => ?_
      have exp : Nat.log2 m + (e - lastPlace t m e).toNat = t.mb := by omega
      rw [← exp, pow_add]
      exact Nat.mul_le_mul_right _ least
    · have exp : Nat.log2 m + 1 + (e - lastPlace t m e).toNat ≤ t.mb + 1 := by omega
      refine lt_of_lt_of_le ?_ (Nat.pow_le_pow_right (by omega) exp)
      rw [pow_add]
      exact Nat.mul_lt_mul_of_pos_right most (by positivity)
  · next shift =>
    rw [Nat.shiftRight_eq_div_pow]
    constructor
    · refine or_iff_not_imp_left.2 fun above => ?_
      have exp : Nat.log2 m = t.mb + (lastPlace t m e - e).toNat := by omega
      rw [Nat.le_div_iff_mul_le (by positivity), ← pow_add, ← exp]
      exact least
    · have exp : Nat.log2 m + 1 ≤ t.mb + 1 + (lastPlace t m e - e).toNat := by omega
      rw [Nat.div_lt_iff_lt_mul (by positivity), ← pow_add]
      exact most.trans_le (Nat.pow_le_pow_right (by omega) exp)

include hm in
theorem magnitude_lowBits : magnitude t (lowBits t m e) = keptBits t m e * 2 ^ lastPlace t m e ∧
    magnitude t (lowBits t m e + 1) = (keptBits t m e + 1) * 2 ^ lastPlace t m e := by
  obtain ⟨low, high⟩ := keptBits_bounds hm e (t := t)
  refine ⟨?_, ?_⟩
  · rw [lowBits, magnitude_add low high.le, mul_assoc, gap_eq]
  · rw [lowBits, Nat.add_assoc, magnitude_add (low.imp_right fun h => h.trans (Nat.le_succ _)) high, mul_assoc, gap_eq]
    push_cast
    rfl

variable {e} {sticky : Bool} {y : ℝ} (hy : Denotes t m e sticky y)
include hy

/-- The part of `y` below a unit of `m`. -/
theorem Denotes.split : ∃ d : ℝ, y = (m + d) * 2 ^ e ∧ 0 ≤ d ∧ d < 1 ∧ (sticky = true ↔ 0 < d) := by
  have pos : (0 : ℝ) < 2 ^ e := by positivity
  cases sticky
  · exact ⟨0, by rw [hy.1 rfl, add_zero], le_rfl, one_pos, by simp⟩
  · obtain ⟨-, above, below⟩ := hy.2 rfl
    refine ⟨y / 2 ^ e - m, ?_, ?_, ?_, ?_⟩
    · field_simp
      ring
    · rw [sub_nonneg, le_div_iff₀ pos]
      exact above.le
    · rw [sub_lt_iff_lt_add, div_lt_iff₀ pos, add_comm]
      exact below
    · rw [sub_pos, lt_div_iff₀ pos]
      exact iff_of_true rfl above

include hm in
/-- `y` is at least the power of 2 that `m` starts with and lies below the next. -/
theorem Denotes.bounds : (2 : ℝ) ^ ((Nat.log2 m : ℤ) + e) ≤ y ∧ y < 2 ^ ((Nat.log2 m : ℤ) + e + 1) := by
  obtain ⟨d, rfl, nonneg, small, -⟩ := hy.split
  have pos : (0 : ℝ) < 2 ^ e := by positivity
  have least : (2 : ℝ) ^ Nat.log2 m ≤ m := by exact_mod_cast Nat.log2_self_le hm
  have most : (m : ℝ) + 1 ≤ 2 ^ (Nat.log2 m + 1) := by exact_mod_cast Nat.lt_log2_self (n := m)
  have next : (2 : ℝ) ^ ((Nat.log2 m : ℤ) + e + 1) = 2 ^ (Nat.log2 m + 1) * 2 ^ e := by
    rw [← zpow_natCast_sub]
    congr 1
    push_cast
    ring
  rw [next, zpow_natCast_sub]
  exact ⟨mul_le_mul_of_nonneg_right (by linarith) pos.le, mul_lt_mul_of_pos_right (by linarith) pos⟩

/-- Where all of `m` is kept, nothing lies below it. -/
theorem Denotes.not_sticky (shift : lastPlace t m e ≤ e) : sticky = false := by
  rw [← Bool.not_eq_true]
  intro on
  obtain ⟨long, -⟩ := hy.2 on
  have top : t.mb + 1 ≤ Nat.log2 m := (Nat.le_log2 (by have := Nat.two_pow_pos (t.mb + 1); omega)).2 long
  have place : lastPlace t m e = max ((Nat.log2 m : ℤ) + e - t.mb) (1 - (t.bias : ℤ) - t.mb) := rfl
  omega

/-- `y` in units of the last place: the mantissa kept and a fraction, which the bits below and `sticky` compare with 0 and a half. -/
theorem Denotes.position :
    ∃ f : ℝ, y = (keptBits t m e + f) * 2 ^ lastPlace t m e ∧ 0 ≤ f ∧ f < 1 ∧
      (0 < f ↔ (restBits t m e ≠ 0 || sticky) = true) ∧
      (1 < 2 * f ↔ halfBits t m e < restBits t m e ∨ (restBits t m e = halfBits t m e ∧ sticky = true)) ∧
      (1 = 2 * f ↔ restBits t m e = halfBits t m e ∧ sticky = false) := by
  obtain ⟨d, rfl, nonneg, small, below⟩ := hy.split
  have exact' := hy.not_sticky
  unfold keptBits restBits halfBits
  by_cases shift : lastPlace t m e ≤ e
  · have none' : sticky = false := exact' shift
    have zero : d = 0 := by
      refine le_antisymm (not_lt.1 fun pos => ?_) nonneg
      rw [← below, none'] at pos
      exact absurd pos Bool.false_ne_true
    subst zero none'
    have exp : e = ((e - lastPlace t m e).toNat : ℤ) + lastPlace t m e := by omega
    refine ⟨0, ?_, le_rfl, one_pos, ?_⟩
    · rw [if_pos shift]
      conv_lhs => rw [exp, zpow_natCast_sub]
      push_cast
      ring
    · simp [shift]
  · rw [if_neg shift, if_neg shift, if_neg shift, Nat.shiftRight_eq_div_pow]
    obtain ⟨k, hk⟩ : ∃ k, (lastPlace t m e - e).toNat = k + 1 := ⟨(lastPlace t m e - e).toNat - 1, by omega⟩
    have exp : lastPlace t m e = ((k + 1 : Nat) : ℤ) + e := by omega
    have split := Nat.div_add_mod m (2 ^ (k + 1))
    have rest := Nat.mod_lt m (show 0 < 2 ^ (k + 1) by positivity)
    rw [hk, Nat.add_sub_cancel, exp, zpow_natCast_sub]
    generalize m / 2 ^ (k + 1) = q at split
    generalize m % 2 ^ (k + 1) = r at split rest
    have half : (0 : ℝ) < 2 ^ k := by positivity
    have double : (2 : ℝ) ^ (k + 1) = 2 * 2 ^ k := by ring
    have whole : (m : ℝ) = 2 ^ (k + 1) * q + r := by exact_mod_cast split.symm
    have rest' : (r : ℝ) + 1 ≤ 2 ^ (k + 1) := by exact_mod_cast rest
    have unit' : 0 < (2 : ℝ) ^ (k + 1) := by positivity
    refine ⟨(r + d) / 2 ^ (k + 1), ?_, by positivity, ?_, ?_, ?_, ?_⟩
    · rw [whole]
      field_simp
      ring
    · rw [div_lt_one unit']
      linarith
    · rw [div_pos_iff_of_pos_right unit', Bool.or_eq_true, below, decide_eq_true_eq, ← Nat.pos_iff_ne_zero, ← Nat.cast_pos (α := ℝ)]
      exact ⟨fun pos => or_iff_not_imp_right.2 fun h => by linarith, fun h => h.elim (fun h => by linarith) fun h => by positivity⟩
    · have middle : 1 < 2 * ((r + d) / 2 ^ (k + 1)) ↔ (2 : ℝ) ^ k < r + d := by
        rw [double, ← mul_div_assoc, mul_div_mul_left _ _ two_ne_zero, one_lt_div half]
      rw [middle, below]
      rcases Nat.lt_trichotomy r (2 ^ k) with less | rfl | more
      · have less' : (r : ℝ) + 1 ≤ 2 ^ k := by exact_mod_cast less
        exact iff_of_false (by linarith) (by omega)
      · simp
      · have more' : (2 : ℝ) ^ k + 1 ≤ r := by exact_mod_cast more
        exact iff_of_true (by linarith) (.inl more)
    · have middle : 1 = 2 * ((r + d) / 2 ^ (k + 1)) ↔ (2 : ℝ) ^ k = r + d := by
        rw [double, ← mul_div_assoc, mul_div_mul_left _ _ two_ne_zero, eq_comm, div_eq_one_iff_eq half.ne', eq_comm]
      rw [middle, ← Bool.not_eq_true, below]
      rcases Nat.lt_trichotomy r (2 ^ k) with less | rfl | more
      · have less' : (r : ℝ) + 1 ≤ 2 ^ k := by exact_mod_cast less
        exact iff_of_false (by linarith) (by omega)
      · push_cast
        constructor
        · exact fun eq => ⟨rfl, by linarith⟩
        · exact fun h => by linarith [not_lt.1 h.2]
      · have more' : (2 : ℝ) ^ k + 1 ≤ r := by exact_mod_cast more
        exact iff_of_false (by linarith) (by omega)

end

end Sys2Proof.Proofs

/-! PROOFS. `roundFp` rounds; rounding as 44 R570 says. -/

namespace Sys2Proof.Proofs

open Sys2Proof Sys2Proof.Machine

section
variable {t : FpFormat} (ht : Ieee t) {m : Nat} (hm : m ≠ 0) {e : ℤ} {sticky : Bool} {y : ℝ} (hy : Denotes t m e sticky y)
include hm hy

theorem Denotes.between : Between t y (lowBits t m e) := by
  obtain ⟨f, rfl, nonneg, small, -⟩ := hy.position
  obtain ⟨low, high⟩ := magnitude_lowBits (t := t) hm e
  have pos : (0 : ℝ) < 2 ^ lastPlace t m e := by positivity
  rw [Between, low, high]
  exact ⟨mul_le_mul_of_nonneg_right (by linarith) pos.le, mul_lt_mul_of_pos_right (by linarith) pos⟩

/-- Nothing lies below the last place exactly where `y` is its lower neighbour. -/
theorem Denotes.inexact_iff : (restBits t m e ≠ 0 || sticky) = true ↔ y ≠ magnitude t (lowBits t m e) := by
  obtain ⟨f, rfl, nonneg, -, inexact, -⟩ := hy.position
  have pos : (0 : ℝ) < 2 ^ lastPlace t m e := by positivity
  rw [← inexact, (magnitude_lowBits hm e).1, ne_eq, mul_left_inj' pos.ne', add_eq_left]
  exact ⟨ne_of_gt, fun ne => nonneg.lt_of_ne' ne⟩

include ht

omit hm hy in
theorem lowBits_odd : lowBits t m e % 2 = keptBits t m e % 2 := by
  obtain ⟨k, hk⟩ := Nat.exists_eq_add_of_le ht.fraction
  rw [lowBits, hk, pow_add, pow_one, show lastLevel t m e * (2 * 2 ^ k) = 2 * (lastLevel t m e * 2 ^ k) by ring]
  omega

theorem Denotes.roundsUp_iff (rm : BitVec 2) (sign : Bool) :
    roundsUp rm sign (decide (keptBits t m e % 2 = 1)) (restBits t m e) (halfBits t m e) sticky = true ↔
      GoesUp t rm sign y (lowBits t m e) := by
  have inexact := hy.inexact_iff hm
  obtain ⟨f, position, -, -, -, more, middle⟩ := hy.position
  obtain ⟨low, high⟩ := magnitude_lowBits (t := t) hm e
  have pos : (0 : ℝ) < 2 ^ lastPlace t m e := by positivity
  have sum : magnitude t (lowBits t m e) + magnitude t (lowBits t m e + 1) = (2 * keptBits t m e + 1) * 2 ^ lastPlace t m e := by
    rw [low, high]
    ring
  have twice : 2 * y = (2 * keptBits t m e + 2 * f) * 2 ^ lastPlace t m e := by
    rw [position]
    ring
  rw [GoesUp, sum, twice, mul_lt_mul_iff_left₀ pos, mul_left_inj' pos.ne', add_lt_add_iff_left, add_right_inj, more, middle, ← inexact,
    lowBits_odd ht]
  unfold roundsUp
  rcases (show rm = 0 ∨ rm = 1 ∨ rm = 2 ∨ rm = 3 by revert rm; decide) with rfl | rfl | rfl | rfl
  · cases sticky <;> simp
  · simp
  · simp [and_comm]
  · simp [and_comm]

omit ht in
theorem Denotes.tiny_iff : (Nat.log2 m : ℤ) + e < 1 - (t.bias : ℤ) ↔ y ≠ 0 ∧ y < 2 ^ (1 - (t.bias : ℤ)) := by
  obtain ⟨least, most⟩ := hy.bounds hm
  have pos : 0 < y := lt_of_lt_of_le (by positivity) least
  constructor
  · intro small
    exact ⟨pos.ne', most.trans_le (zpow_le_zpow_right₀ one_le_two (by omega))⟩
  · rintro ⟨-, small⟩
    exact (zpow_lt_zpow_iff_right₀ one_lt_two).1 (least.trans_lt small)

theorem Denotes.roundsTo (rm : BitVec 2) (sign : Bool) :
    RoundsTo t rm sign y (lowBits t m e +
      (roundsUp rm sign (decide (keptBits t m e % 2 = 1)) (restBits t m e) (halfBits t m e) sticky).toNat) := by
  refine ⟨lowBits t m e, hy.between hm, ?_⟩
  rw [← hy.roundsUp_iff ht hm]
  cases roundsUp rm sign (decide (keptBits t m e % 2 = 1)) (restBits t m e) (halfBits t m e) sticky
  · exact .inr ⟨Bool.false_ne_true, rfl⟩
  · exact .inl ⟨rfl, rfl⟩

end

/-- A value that lies off its lower neighbour is not where it rounds to. -/
theorem RoundsTo.exact_iff {t : FpFormat} {rm : BitVec 2} {sign : Bool} {y : ℝ} {g low : Nat} (h : RoundsTo t rm sign y g)
    (between : Between t y low) : y = magnitude t g ↔ y = magnitude t low := by
  constructor
  · rintro rfl
    rw [le_antisymm (between.le_of_magnitude_le le_rfl) ((magnitude_strictMono t).le_iff_le.1 between.1)]
  · rintro rfl
    rw [h.eq_of_magnitude]

theorem infBits_eq (t : FpFormat) (sign : Bool) : infBits t sign = signBit t sign + infinityMag t := rfl

theorem maxBits_eq {t : FpFormat} (ht : Ieee t) (sign : Bool) : maxBits t sign = signBit t sign + (infinityMag t - 1) := by
  have := (infinityMag_even ht).2
  rw [maxBits, infBits_eq]
  omega

/-- `roundFp` rounds the value it is given. -/
theorem roundFp_isRounded {t : FpFormat} (ht : Ieee t) (rm : BitVec 2) (sign : Bool) {m : Nat} {e : ℤ} {sticky : Bool} {y : ℝ}
    (hy : Denotes t m e sticky y) : IsRounded t rm sign y (roundFp t rm sign m e sticky) := by
  by_cases hm : m = 0
  · subst hm
    have exact' : sticky = false := by
      rw [← Bool.not_eq_true]
      intro on
      have := Nat.two_pow_pos (t.mb + 1)
      have := (hy.2 on).1
      omega
    have zero : y = magnitude t 0 := by
      rw [hy.1 exact', magnitude_zero]
      push_cast
      ring
    have none' : ¬infinityMag t ≤ 0 := by
      have := (infinityMag_even ht).2
      omega
    rw [zero]
    refine ⟨0, roundsTo_magnitude t rm sign 0, ?_, rfl, rfl, ?_, ?_, ?_⟩
    · rw [delivered, if_neg none']
      rfl
    · exact iff_of_false Bool.false_ne_true none'
    · exact iff_of_false Bool.false_ne_true (by simp [none'])
    · exact iff_of_false Bool.false_ne_true (by simp [magnitude_zero])
  · have rounded := hy.roundsTo ht hm rm sign
    have inexact := (hy.inexact_iff hm).trans (not_congr (rounded.exact_iff (hy.between hm)).symm)
    rw [roundFp_eq t rm sign hm]
    refine ⟨_, rounded, ?_⟩
    generalize lowBits t m e + (roundsUp rm sign (decide (keptBits t m e % 2 = 1)) (restBits t m e) (halfBits t m e) sticky).toNat = g
      at inexact
    simp only [delivered]
    split
    · next beyond =>
      refine ⟨?_, rfl, rfl, iff_of_true rfl beyond, iff_of_true rfl (.inl beyond), ?_⟩
      · rw [infBits_eq, maxBits_eq ht]
        split <;> rfl
      · exact decide_eq_true_iff.trans (hy.tiny_iff hm)
    · next within =>
      exact ⟨rfl, rfl, rfl, iff_of_false Bool.false_ne_true within, inexact.trans (or_iff_right within).symm,
        decide_eq_true_iff.trans (hy.tiny_iff hm)⟩

/-! ### Unpacking -/

section
variable (t : FpFormat) (w : Nat)

theorem testBit_sign : w.testBit (t.eb + t.mb) = t.neg w := by
  rw [Nat.testBit_eq_decide_div_mod_eq, FpFormat.neg]

theorem unpack_eq :
    unpack t w =
      if t.expOf w = 2 ^ t.eb - 1 then (if t.fracOf w = 0 then .inf (t.neg w) else .nan (!(t.fracOf w).testBit (t.mb - 1)) (t.neg w) (t.fracOf w))
      else if t.expOf w = 0 then .fin (t.neg w) (t.fracOf w) (1 - (t.bias : ℤ) - t.mb)
      else .fin (t.neg w) (2 ^ t.mb + t.fracOf w) ((t.expOf w : ℤ) - t.bias - t.mb) := by
  rw [unpack, testBit_sign, Nat.shiftRight_eq_div_pow]
  rfl

/-- The mantissa and the exponent of a finite number. -/
def mantissa : Nat := if t.expOf w = 0 then t.fracOf w else 2 ^ t.mb + t.fracOf w
def exponent : ℤ := if t.expOf w = 0 then 1 - (t.bias : ℤ) - t.mb else (t.expOf w : ℤ) - t.bias - t.mb

variable {t w}

theorem unpack_finite (h : t.finite w = true) : unpack t w = .fin (t.neg w) (mantissa t w) (exponent t w) := by
  have ne : t.expOf w ≠ 2 ^ t.eb - 1 := by simpa [FpFormat.finite] using h
  rw [unpack_eq, if_neg ne, mantissa, exponent]
  split <;> rfl

theorem unpack_infinite (h : t.infinite w = true) : unpack t w = .inf (t.neg w) := by
  obtain ⟨exp, frac⟩ : t.expOf w = 2 ^ t.eb - 1 ∧ t.fracOf w = 0 := by simpa [FpFormat.infinite] using h
  rw [unpack_eq, if_pos exp, if_pos frac]

theorem not_topBit {f k : Nat} (hf : f < 2 ^ k) : (!f.testBit (k - 1)) = decide (f < 2 ^ (k - 1)) := by
  rcases k with - | k
  · obtain rfl : f = 0 := by omega
    rfl
  · rw [Nat.add_sub_cancel]
    by_cases low : f < 2 ^ k
    · rw [Nat.testBit_lt_two_pow low, decide_eq_true low]
      rfl
    · have one : f / 2 ^ k = 1 := Nat.div_eq_of_lt_le (by omega) (by rw [pow_succ] at hf; omega)
      rw [Nat.testBit_eq_decide_div_mod_eq, one, decide_eq_false low]
      rfl

theorem unpack_nan (h : t.nan w = true) : unpack t w = .nan (t.snan w) (t.neg w) (t.fracOf w) := by
  obtain ⟨exp, frac⟩ : t.expOf w = 2 ^ t.eb - 1 ∧ t.fracOf w ≠ 0 := by simpa [FpFormat.nan] using h
  have quiet : (!(t.fracOf w).testBit (t.mb - 1)) = t.snan w := by
    rw [FpFormat.snan, h, Bool.true_and, not_topBit (f := t.fracOf w) (Nat.mod_lt _ (by positivity))]
  rw [unpack_eq, if_pos exp, if_neg frac, quiet]

/-- A number is finite, infinite or a NaN. -/
theorem fp_classes (t : FpFormat) (w : Nat) :
    (t.nan w = true ∧ t.infinite w = false ∧ t.finite w = false) ∨ (t.nan w = false ∧ t.infinite w = true ∧ t.finite w = false) ∨
      (t.nan w = false ∧ t.infinite w = false ∧ t.finite w = true) := by
  unfold FpFormat.nan FpFormat.infinite FpFormat.finite
  by_cases exp : t.expOf w = 2 ^ t.eb - 1 <;> by_cases frac : t.fracOf w = 0 <;> simp [exp, frac]

theorem value_mantissa (t : FpFormat) (w : Nat) : t.value w = (if t.neg w then -1 else 1) * mantissa t w * (2 : ℚ) ^ exponent t w := by
  rw [FpFormat.value, mantissa, exponent, mul_assoc]
  by_cases zero : t.expOf w = 0
  · simp only [zero, if_true]
  · simp only [zero, if_false]
    push_cast
    rfl

theorem unpack_value (h : t.finite w = true) : (unpack t w).finite = true ∧ (unpack t w).value = t.value w := by
  rw [unpack_finite h, value_mantissa]
  exact ⟨rfl, rfl⟩

end

/-! ### The rounding error -/

theorem Denotes.nonneg {t : FpFormat} {m : Nat} {e : ℤ} {sticky : Bool} {y : ℝ} (hy : Denotes t m e sticky y) : 0 ≤ y := by
  obtain ⟨d, rfl, pos, -⟩ := hy.split
  positivity

theorem Between.unique {t : FpFormat} {y : ℝ} {g k : Nat} (h : Between t y g) (h' : Between t y k) : g = k :=
  le_antisymm (h'.le_of_magnitude_le h.1) (h.le_of_magnitude_le h'.1)

/-- Settles O55. -/
theorem roundingError : Obligations.RoundingError := by
  intro t rm sign m e sticky tem x format hm exact' between r y v ulp
  have ht : Ieee t := by
    rcases format with rfl | rfl
    · exact ieee_single
    · exact ieee_double
  have hx : Denotes t m e sticky x := ⟨exact', between⟩
  have rounded := roundFp_isRounded ht rm sign hx
  refine ⟨rounded.rounds ht hx.nonneg (fun _ => rfl) tem, fun fits => ?_⟩
  obtain ⟨g, rounds, bits, -, -, ovf, nx, -⟩ := rounded
  have inside : ¬infinityMag t ≤ g := by
    rw [← ovf]
    simpa using fits
  have same : delivered t rm sign g = g := if_neg inside
  have low := delivered_lt t rm sign g
  rw [same] at bits low
  have finite : t.finite r.bits = true := by
    rw [bits, finite_signed low]
    exact not_le.1 inside
  obtain ⟨finite', value⟩ := unpack_value finite
  have hv : v = withSign sign (magnitude t g) := by
    rw [← value_signed low, ← bits, ← value]
  have hulp : ulp = 2 ^ lastPlace t m e := by
    have : lastPlace t m e = max ((Nat.log2 m : ℤ) + e) (1 - (t.bias : ℤ)) - (t.mb : ℤ) := by
      unfold lastPlace
      omega
    rw [this]
  obtain ⟨lower, at', near, nearest⟩ := rounds.error
  rw [at'.unique (hx.between hm)] at near nearest
  obtain ⟨lowMag, highMag⟩ := magnitude_lowBits (t := t) hm e
  have gap : magnitude t (lowBits t m e + 1) - magnitude t (lowBits t m e) = ulp := by
    rw [hulp, lowMag, highMag]
    ring
  rw [gap] at near nearest
  have hy : y = withSign sign x := rfl
  rw [hv, hy, abs_withSign_sub]
  refine ⟨finite', near, nearest, ?_, ?_, ?_, ?_⟩
  · rintro rfl
    exact (rounds_inward hx.nonneg rounds (by decide) (by simp [Outward]) sign 0).1
  · rintro rfl
    exact (rounds_upward hx.nonneg rounds sign 0).1
  · rintro rfl
    exact (rounds_downward hx.nonneg rounds sign 0).1
  · rw [nx, or_iff_right inside, ne_eq, ne_eq, withSign_inj, eq_comm]

end Sys2Proof.Proofs

/-! PROOFS. The order of numbers, exact results, and conversion to integers. -/

namespace Sys2Proof.Proofs

open Sys2Proof Sys2Proof.Machine

theorem ieee_of {t : FpFormat} (h : t = single ∨ t = double) : Ieee t := by
  rcases h with rfl | rfl
  · exact ieee_single
  · exact ieee_double

/-! ### The order of two numbers -/

theorem value_withSign (t : FpFormat) (w : Nat) : ((t.value w : ℚ) : ℝ) = withSign (t.neg w) (magnitude t (w % 2 ^ (t.eb + t.mb))) := by
  rw [value_eq]
  cases t.neg w <;> simp [withSign]

/-- Numbers are ordered as their bits are, read as signed magnitudes. -/
theorem withSign_magnitude_lt_iff (t : FpFormat) (b c : Bool) (g k : Nat) :
    withSign b (magnitude t g) < withSign c (magnitude t k) ↔ signed b g < signed c k := by
  have mono := magnitude_strictMono t
  have hg := magnitude_nonneg t g
  have hk := magnitude_nonneg t k
  cases b <;> cases c <;> simp only [withSign, signed, if_true, Bool.false_eq_true, if_false]
  · rw [mono.lt_iff_lt, Nat.cast_lt]
  · exact iff_of_false (by linarith) (by omega)
  · rcases Nat.eq_zero_or_pos g with rfl | pos
    · rw [magnitude_zero, neg_zero, ← magnitude_zero t, mono.lt_iff_lt]
      omega
    · have := mono pos
      rw [magnitude_zero] at this
      exact iff_of_true (by linarith) (by omega)
  · rw [neg_lt_neg_iff, mono.lt_iff_lt]
    omega

theorem fpKey_lt_iff (t : FpFormat) (a b : Nat) : fpKey t a < fpKey t b ↔ t.value a < t.value b := by
  rw [← Rat.cast_lt (K := ℝ), value_withSign, value_withSign, withSign_magnitude_lt_iff, fpKey, fpKey, testBit_sign, testBit_sign]

theorem isNan_unpack (t : FpFormat) (w : Nat) : (unpack t w).isNan = t.nan w := by
  rcases fp_classes t w with ⟨nan, -, -⟩ | ⟨nan, inf, -⟩ | ⟨nan, -, fin⟩
  · rw [unpack_nan nan, nan]
    rfl
  · rw [unpack_infinite inf, nan]
    rfl
  · rw [unpack_finite fin, nan]
    rfl

theorem finite_unpack (t : FpFormat) (w : Nat) : (unpack t w).finite = t.finite w := by
  rcases fp_classes t w with ⟨nan, -, fin⟩ | ⟨-, inf, fin⟩ | ⟨-, -, fin⟩
  · rw [unpack_nan nan, fin]
    rfl
  · rw [unpack_infinite inf, fin]
    rfl
  · rw [unpack_finite fin, fin]
    rfl

/-- Settles O54. -/
theorem fpRelationByValue : Obligations.FpRelationByValue := by
  intro t a b _ _ _ x y
  constructor
  · intro nan
    rw [fpRelation, if_pos (by simpa using nan)]
  · intro finx finy
    have fina := finx
    have finb := finy
    rw [finite_unpack] at fina finb
    have ordered {w : Nat} (fin : t.finite w = true) : (unpack t w).isNan = false := by
      rw [unpack_finite fin]
      rfl
    have less := fpKey_lt_iff t a b
    have more := fpKey_lt_iff t b a
    rw [fpRelation, ordered fina, ordered finb, Bool.or_self, if_neg Bool.false_ne_true, (unpack_value fina).2, (unpack_value finb).2]
    refine ⟨fun eq => ?_, fun lt => ?_, fun gt => ?_⟩
    · rw [eq] at less more
      have : ¬fpKey t a < fpKey t b := mt less.1 (lt_irrefl _)
      have : ¬fpKey t b < fpKey t a := mt more.1 (lt_irrefl _)
      rw [if_pos (by omega)]
    · have := less.2 lt
      rw [if_neg (by omega), if_pos this]
    · have := more.2 gt
      rw [if_neg (by omega), if_neg (by omega)]

/-! ### Exact results -/

/-- A mantissa of at most mb + 1 bits above the lowest place is a number of the format. -/
theorem representable {t : FpFormat} {m : Nat} (hm : m < 2 ^ (t.mb + 1)) {e : ℤ} (he : 1 - (t.bias : ℤ) - t.mb ≤ e) :
    ∃ k, (m : ℝ) * 2 ^ e = magnitude t k := by
  rcases Nat.eq_zero_or_pos m with rfl | pos
  · exact ⟨0, by simp [magnitude_zero]⟩
  · have denotes : Denotes t m e false (m * 2 ^ e) := ⟨fun _ => rfl, fun h => absurd h Bool.false_ne_true⟩
    have top : Nat.log2 m < t.mb + 1 := (Nat.log2_lt pos.ne').2 hm
    have shift : lastPlace t m e ≤ e := by
      unfold lastPlace
      omega
    refine ⟨lowBits t m e, ?_⟩
    by_contra ne
    have := (denotes.inexact_iff pos.ne').2 ne
    simp [restBits, shift] at this

theorem exceptions_eq_zero {r : FpResult} (nv : r.nv = false) (ovf : r.ovf = false) (dz : r.dz = false) (nx : r.nx = false)
    (tiny : r.tiny = false) (tem : BitVec 5) : r.exceptions tem = 0 := by
  simp [FpResult.exceptions, nv, ovf, dz, nx, tiny, b1]

/-- A number of the format that is normal or 0 is delivered as it is, without an exception. -/
theorem roundFp_exact {t : FpFormat} (ht : Ieee t) (rm : BitVec 2) (sign : Bool) {m : Nat} (hm : m < 2 ^ (t.mb + 1)) {e : ℤ}
    (he : 1 - (t.bias : ℤ) - t.mb ≤ e) (small : (m : ℝ) * 2 ^ e < 2 ^ (t.bias + 1)) (normal : m ≠ 0 → (2 : ℝ) ^ (1 - (t.bias : ℤ)) ≤ m * 2 ^ e)
    (tem : BitVec 5) :
    let r := roundFp t rm sign m e false
    r.exceptions tem = 0 ∧ t.finite r.bits = true ∧ t.neg r.bits = sign ∧ ((t.value r.bits : ℚ) : ℝ) = withSign sign (m * 2 ^ e) := by
  intro r
  have denotes : Denotes t m e false (m * 2 ^ e) := ⟨fun _ => rfl, fun h => absurd h Bool.false_ne_true⟩
  obtain ⟨k, hk⟩ := representable hm he
  obtain ⟨g, rounds, bits, nv, dz, ovf, nx, tiny⟩ := roundFp_isRounded ht rm sign denotes
  rw [hk] at rounds nx tiny small normal ⊢
  obtain rfl := rounds.eq_of_magnitude
  rw [← magnitude_infinity ht] at small
  have inside : ¬infinityMag t ≤ g := not_le.2 ((magnitude_strictMono t).lt_iff_lt.1 small)
  have same : delivered t rm sign g = g := if_neg inside
  have low := delivered_lt t rm sign g
  rw [same] at bits low
  have off {b : Bool} {p : Prop} (h : b = true ↔ p) (not : ¬p) : b = false := Bool.eq_false_iff.2 (mt h.1 not)
  refine ⟨exceptions_eq_zero nv (off ovf inside) dz (off nx (by simp [inside])) (off tiny ?_) tem, ?_, ?_, ?_⟩
  · rintro ⟨ne, tiny⟩
    have some' : m ≠ 0 := by
      rintro rfl
      exact ne (by rw [← hk]; simp)
    exact absurd tiny (not_lt.2 (normal some'))
  · rw [bits, finite_signed low]
    exact not_le.1 inside
  · rw [bits, neg_signed low]
  · rw [bits, value_signed low]

/-! ### To integers -/

/-- The integer part of `m * 2^e`. -/
def integerPart (m : Nat) (e : ℤ) : Nat := if 0 ≤ e then m * 2 ^ e.toNat else m >>> (-e).toNat

theorem integerPart_spec (m : Nat) (e : ℤ) :
    (integerPart m e : ℚ) ≤ m * 2 ^ e ∧ (m : ℚ) * 2 ^ e < integerPart m e + 1 ∧
      ((if 0 ≤ e then false else decide (m % 2 ^ (-e).toNat ≠ 0)) = true ↔ (integerPart m e : ℚ) ≠ m * 2 ^ e) := by
  unfold integerPart
  by_cases up : 0 ≤ e
  · obtain ⟨k, rfl⟩ := Int.eq_ofNat_of_zero_le up
    simp
  · obtain ⟨k, hk⟩ : ∃ k : Nat, e = -k := ⟨(-e).toNat, by omega⟩
    subst hk
    have pos : (0 : ℚ) < 2 ^ k := by positivity
    have split := Nat.div_add_mod m (2 ^ k)
    have rest := Nat.mod_lt m (show 0 < 2 ^ k by positivity)
    rw [if_neg up, if_neg up, neg_neg, Int.toNat_natCast, Nat.shiftRight_eq_div_pow, zpow_neg, zpow_natCast, ← div_eq_mul_inv]
    generalize m / 2 ^ k = q at split
    generalize m % 2 ^ k = r at split rest
    have whole : (m : ℚ) = 2 ^ k * q + r := by exact_mod_cast split.symm
    have rest' : (r : ℚ) < 2 ^ k := by exact_mod_cast rest
    have nonneg : (0 : ℚ) ≤ r := Nat.cast_nonneg r
    rw [le_div_iff₀ pos, div_lt_iff₀ pos, whole, decide_eq_true_iff]
    refine ⟨by linarith, by linarith, not_congr ?_⟩
    rw [eq_div_iff pos.ne', mul_comm, left_eq_add, Nat.cast_eq_zero]

theorem fpToInt_fin (sign : Bool) (m : Nat) (e : ℤ) :
    fpToInt (.fin sign m e) =
      if signed sign (integerPart m e) < -(2 ^ 31) ∨ 2 ^ 31 ≤ signed sign (integerPart m e) then invalidInt sign
      else
        { bits := (BitVec.ofInt 32 (signed sign (integerPart m e))).toNat
          nx := if 0 ≤ e then false else decide (m % 2 ^ (-e).toNat ≠ 0) } := by
  simp only [fpToInt, Bool.or_eq_true, decide_eq_true_eq]
  rfl

theorem signed_value (sign : Bool) (m : Nat) (e : ℤ) : (Fp.fin sign m e).value = (if sign then -1 else 1) * (m * (2 : ℚ) ^ e) := by
  rw [Fp.value, mul_assoc]

/-- A number whose value is an integer in range converts to it exactly. -/
theorem fpToInt_of_integer {sign : Bool} {m : Nat} {e : ℤ} {n : ℤ} (value : (Fp.fin sign m e).value = n) (low : -(2 ^ 31) ≤ n)
    (high : n < 2 ^ 31) : fpToInt (.fin sign m e) = { bits := (BitVec.ofInt 32 n).toNat } := by
  obtain ⟨floor, ceil, inexact⟩ := integerPart_spec m e
  have whole : signed sign (integerPart m e) = n ∧ (integerPart m e : ℚ) = m * 2 ^ e := by
    rw [signed_value] at value
    cases sign
    · simp only [Bool.false_eq_true, if_false, one_mul] at value
      rw [value] at floor ceil ⊢
      have part : (integerPart m e : ℤ) = n := by
        have h1 : (integerPart m e : ℤ) ≤ n := by exact_mod_cast floor
        have h2 : n < integerPart m e + 1 := by exact_mod_cast ceil
        omega
      exact ⟨part, by exact_mod_cast part⟩
    · simp only [if_true, neg_mul, one_mul, neg_eq_iff_eq_neg] at value
      rw [value] at floor ceil ⊢
      have part : (integerPart m e : ℤ) = -n := by
        have h1 : (integerPart m e : ℤ) ≤ -n := by exact_mod_cast floor
        have h2 : -n < integerPart m e + 1 := by exact_mod_cast ceil
        omega
      refine ⟨?_, by exact_mod_cast part⟩
      simp only [signed, if_true]
      omega
  obtain ⟨part, exact'⟩ := whole
  rw [fpToInt_fin, part, if_neg (by omega), Bool.eq_false_iff.2 (mt inexact.1 (not_not.2 exact'))]

theorem withSign_natAbs (w : Word) : withSign w.msb (w.toInt.natAbs : ℝ) = w.toInt := by
  rw [BitVec.msb_eq_toInt, withSign, Nat.cast_natAbs]
  by_cases neg : w.toInt < 0
  · simp [neg, abs_of_neg neg]
  · simp [neg, abs_of_nonneg (not_lt.1 neg)]

theorem natAbs_toInt_le (w : Word) : w.toInt.natAbs ≤ 2 ^ 31 := by
  have low := w.le_toInt
  have high := w.toInt_lt
  omega

/-- An integer in the double format. -/
theorem fpOfInt_double (rm : BitVec 2) (w : Word) (tem : BitVec 5) :
    let r := fpOfInt double rm w
    r.exceptions tem = 0 ∧ double.finite r.bits = true ∧ double.neg r.bits = w.msb ∧ double.value r.bits = w.toInt := by
  intro r
  have bound := natAbs_toInt_le w
  have bound' : (w.toInt.natAbs : ℝ) ≤ 2 ^ 31 := by exact_mod_cast bound
  have small : (w.toInt.natAbs : ℝ) * 2 ^ (0 : ℤ) < 2 ^ (double.bias + 1) := by
    rw [zpow_zero, mul_one]
    exact bound'.trans_lt (pow_lt_pow_right₀ one_lt_two (by decide))
  have normal (ne : w.toInt.natAbs ≠ 0) : (2 : ℝ) ^ (1 - (double.bias : ℤ)) ≤ w.toInt.natAbs * 2 ^ (0 : ℤ) := by
    have one : (1 : ℝ) ≤ w.toInt.natAbs := by exact_mod_cast Nat.one_le_iff_ne_zero.2 ne
    rw [zpow_zero, mul_one]
    exact (zpow_le_one_of_nonpos₀ one_le_two (by decide)).trans one
  obtain ⟨quiet, finite, neg, value⟩ := roundFp_exact ieee_double rm w.msb (bound.trans_lt (by decide)) (by decide) small normal tem
  refine ⟨quiet, finite, neg, ?_⟩
  rw [zpow_zero, mul_one, withSign_natAbs] at value
  exact_mod_cast value

/-- Settles O56. -/
theorem integerDoubleRoundTrip : Obligations.IntegerDoubleRoundTrip := by
  intro rm w r
  obtain ⟨quiet, finite, -, value⟩ := fpOfInt_double rm w 0
  obtain ⟨-, same⟩ := unpack_value finite
  refine ⟨quiet, same.trans value, ?_⟩
  have low := w.le_toInt
  have high := w.toInt_lt
  have whole := same.trans value
  rw [unpack_finite finite] at whole ⊢
  rw [fpToInt_of_integer whole (by omega) (by omega), BitVec.ofInt_toInt]

end Sys2Proof.Proofs

/-! PROOFS. Sum, product, quotient, root and conversion: exact value, rounded once, and the special cases (44 R570 to R590, R598). -/

namespace Sys2Proof.Proofs

open Sys2Proof Sys2Proof.Machine

/-! ### NaN results -/

/-- What a decoded operand shows of a NaN with bits `a`; a changed sign does not show. -/
structure Shows (t : FpFormat) (a : Nat) (x : Fp) : Prop where
  isNan : x.isNan = t.nan a
  isSignaling : x.isSignaling = t.snan a
  asNan : x.asNan t = if t.nan a then some { mb := t.mb, sign := t.neg a, frac := t.fracOf a } else none

theorem snan_of_not_nan {t : FpFormat} {w : Nat} (h : t.nan w = false) : t.snan w = false := by
  rw [FpFormat.snan, h, Bool.false_and]

theorem shows_unpack (t : FpFormat) (w : Nat) : Shows t w (unpack t w) := by
  rcases fp_classes t w with ⟨nan, -, -⟩ | ⟨nan, inf, -⟩ | ⟨nan, -, fin⟩
  · rw [unpack_nan nan]
    exact ⟨nan.symm, rfl, by rw [nan]; rfl⟩
  · rw [unpack_infinite inf]
    exact ⟨nan.symm, (snan_of_not_nan nan).symm, by rw [nan]; rfl⟩
  · rw [unpack_finite fin]
    exact ⟨nan.symm, (snan_of_not_nan nan).symm, by rw [nan]; rfl⟩

theorem Shows.neg {t : FpFormat} {w : Nat} {x : Fp} (h : Shows t w x) : Shows t w x.neg := by
  cases x with
  | nan s b f => exact h
  | inf s => exact ⟨h.isNan, h.isSignaling, h.asNan⟩
  | fin s m e => exact ⟨h.isNan, h.isSignaling, h.asNan⟩

theorem exceptions_only_nv (bits : Nat) (nv : Bool) (tem : BitVec 5) :
    ({ bits := bits, nv := nv } : FpResult).exceptions tem = if nv then 0b10000 else 0 := exceptions_nv nv tem

/-- Setting the first bit of a fraction. -/
theorem or_topBit {f k : Nat} (hf : f < 2 ^ (k + 1)) : f ||| 2 ^ k = 2 ^ k + f % 2 ^ k := by
  have split := Nat.div_add_mod f (2 ^ k)
  have low : f % 2 ^ k < 2 ^ k := Nat.mod_lt _ (by positivity)
  have digit : f / 2 ^ k < 2 := Nat.div_lt_of_lt_mul (by rwa [← pow_succ])
  have whole : 2 ^ k * 1 ||| f % 2 ^ k = 2 ^ k * 1 + f % 2 ^ k := (Nat.two_pow_add_eq_or_of_lt low 1).symm
  rw [mul_one] at whole
  rcases Nat.le_one_iff_eq_zero_or_eq_one.1 (Nat.lt_succ_iff.1 digit) with zero | one
  · have small : f = f % 2 ^ k := by
      rw [zero] at split
      omega
    rw [Nat.or_comm]
    conv_lhs => rw [small]
    exact whole
  · have big : f = 2 ^ k ||| f % 2 ^ k := by
      rw [one] at split
      rw [whole]
      omega
    conv_lhs => rw [big, Nat.or_comm, ← Nat.or_assoc, Nat.or_self]
    exact whole

/-- The first bits of a fraction, in a format with more or fewer of them. -/
theorem convertedFrac_eq (smb dmb f : Nat) :
    (if smb ≤ dmb then f <<< (dmb - smb) else f >>> (smb - dmb)) = f * 2 ^ dmb / 2 ^ smb := by
  split
  · next wider =>
    obtain ⟨k, rfl⟩ := Nat.exists_eq_add_of_le wider
    rw [Nat.add_sub_cancel_left, Nat.shiftLeft_eq, pow_add, mul_comm (2 ^ smb), ← mul_assoc, Nat.mul_div_cancel _ (by positivity)]
  · next narrower =>
    obtain ⟨k, rfl⟩ := Nat.exists_eq_add_of_le (not_le.1 narrower).le
    rw [Nat.add_sub_cancel_left, Nat.shiftRight_eq_div_pow, pow_add, mul_comm (2 ^ dmb), Nat.mul_div_mul_right _ _ (by positivity)]

/-- The quiet NaN delivered for a NaN operand. -/
theorem deliveredNan_cons {src dst : FpFormat} (hd : Ieee dst) (a : Nat) (rest : List Config.Nan) :
    deliveredNan dst ({ mb := src.mb, sign := src.neg a, frac := src.fracOf a } :: rest) = quieted src dst a := by
  have frac : src.fracOf a < 2 ^ src.mb := Nat.mod_lt _ (by positivity)
  have fraction := hd.fraction
  have bound : src.fracOf a * 2 ^ dst.mb / 2 ^ src.mb < 2 ^ (dst.mb - 1 + 1) := by
    rw [Nat.sub_add_cancel fraction, Nat.div_lt_iff_lt_mul (by positivity), mul_comm (2 ^ dst.mb)]
    exact Nat.mul_lt_mul_of_pos_right frac (by positivity)
  rw [deliveredNan, Config.nanResult]
  simp only
  rw [convertedFrac_eq, or_topBit bound, quieted, Nat.add_assoc]
  rfl

section
variable {src dst : FpFormat} (hd : Ieee dst) {a b : Nat} {x y : Fp} (hx : Shows src a x) (hy : Shows src b y) (k : FpResult)
include hx hy

include hd in
theorem withNan2_nan (tem : BitVec 5) (nan : (src.nan a || src.nan b) = true) :
    NanResult src dst a b (withNan2 src dst x y k).bits ((withNan2 src dst x y k).exceptions tem) := by
  have any : [y, x].any Fp.isNan = true := by simpa [hx.isNan, hy.isNan, or_comm] using nan
  rw [withNan2, withNan, if_pos any, NanResult, exceptions_only_nv]
  constructor
  · cases nanB : src.nan b
    · have nanA : src.nan a = true := by simpa [nanB] using nan
      simp only [List.filterMap_cons, List.filterMap_nil, hx.asNan, hy.asNan, nanA, nanB, if_true, Bool.false_eq_true, if_false]
      exact deliveredNan_cons hd a []
    · simp only [List.filterMap_cons, hy.asNan, nanB, if_true]
      exact deliveredNan_cons hd b _
  · simp [hx.isSignaling, hy.isSignaling, or_comm]

theorem withNan2_other (nan : (src.nan a || src.nan b) = false) : withNan2 src dst x y k = k := by
  have any : [y, x].any Fp.isNan = false := by
    rw [Bool.or_eq_false_iff] at nan
    simp [hx.isNan, hy.isNan, nan.1, nan.2]
  rw [withNan2, withNan, any, if_neg Bool.false_ne_true]

omit hy

include hd in
theorem withNan1_nan (tem : BitVec 5) (nan : src.nan a = true) :
    NanResult src dst a a (withNan1 src dst x k).bits ((withNan1 src dst x k).exceptions tem) := by
  have any : [x].any Fp.isNan = true := by simpa [hx.isNan] using nan
  rw [withNan1, withNan, if_pos any, NanResult, exceptions_only_nv, nan, if_pos rfl, Bool.or_self]
  simp only [List.filterMap_cons, List.filterMap_nil, hx.asNan, nan, if_true]
  exact ⟨deliveredNan_cons hd a [], by simp [hx.isSignaling]⟩

theorem withNan1_other (nan : src.nan a = false) : withNan1 src dst x k = k := by
  have any : [x].any Fp.isNan = false := by simp [hx.isNan, nan]
  rw [withNan1, withNan, any, if_neg Bool.false_ne_true]

end

theorem invalid_result {t : FpFormat} (h : t = single ∨ t = double) (tem : BitVec 5) :
    InvalidResult t (invalid t).bits ((invalid t).exceptions tem) := by
  refine ⟨?_, exceptions_only_nv _ true tem⟩
  rcases h with rfl | rfl
  · decide
  · decide

theorem quiet_result (bits : Nat) (tem : BitVec 5) : ({ bits := bits } : FpResult).exceptions tem = 0 := exceptions_only_nv bits false tem

/-! ### Operands with a value -/

theorem fin_value (sign : Bool) (m : Nat) (e : ℤ) : (((Fp.fin sign m e).value : ℚ) : ℝ) = withSign sign (m * 2 ^ e) := by
  rw [signed_value]
  cases sign <;> simp [withSign]

theorem value_fin {t : FpFormat} {w : Nat} (fin : t.finite w = true) :
    ((t.value w : ℚ) : ℝ) = withSign (t.neg w) (mantissa t w * 2 ^ exponent t w) := by
  rw [← (unpack_value fin).2, unpack_finite fin, fin_value]

theorem zero_eq_mantissa (t : FpFormat) (w : Nat) : t.zero w = decide (mantissa t w = 0) := by
  have pos := Nat.two_pow_pos t.mb
  unfold FpFormat.zero mantissa
  by_cases exp : t.expOf w = 0
  · simp [exp]
  · simp [exp]

theorem zero_of_infinite {t : FpFormat} (ht : Ieee t) {w : Nat} (inf : t.infinite w = true) : t.zero w = false := by
  obtain ⟨exp, -⟩ : t.expOf w = 2 ^ t.eb - 1 ∧ t.fracOf w = 0 := by simpa [FpFormat.infinite] using inf
  have := ht.exponents
  rw [FpFormat.zero, decide_eq_false (by omega), Bool.false_and]

theorem denotes_exact (t : FpFormat) (m : Nat) (e : ℤ) : Denotes t m e false (m * 2 ^ e) :=
  ⟨fun _ => rfl, fun h => absurd h Bool.false_ne_true⟩

/-- A value known exactly, or by the places of its quotient or root, is rounded by `roundFp`. -/
theorem rounds_of_denotes {t : FpFormat} (ht : Ieee t) (rm : BitVec 2) {sign zeroNeg : Bool} {m : Nat} {e : ℤ} {sticky : Bool} {x y : ℝ}
    (denotes : Denotes t m e sticky y) (value : x = withSign sign y) (zero : y = 0 → sign = zeroNeg) (tem : BitVec 5) :
    Rounds t rm (tem.getLsbD 2) x zeroNeg (roundFp t rm sign m e sticky).bits ((roundFp t rm sign m e sticky).exceptions tem) := by
  rw [value]
  exact (roundFp_isRounded ht rm sign denotes).rounds ht denotes.nonneg zero tem

/-! ### Sums -/

theorem signed_cast (sign : Bool) (n : Nat) : ((signed sign n : ℤ) : ℝ) = withSign sign n := by
  cases sign <;> simp [signed, withSign]

/-- A mantissa brought to a lower exponent. -/
theorem signed_shift (sign : Bool) (m : Nat) {e f : ℤ} (h : f ≤ e) :
    ((signed sign (m * 2 ^ (e - f).toNat) : ℤ) : ℝ) * 2 ^ f = withSign sign (m * 2 ^ e) := by
  have exp : e = ((e - f).toNat : ℤ) + f := by omega
  have shift : (2 : ℝ) ^ e = 2 ^ (e - f).toNat * 2 ^ f := by
    conv_lhs => rw [exp, zpow_natCast_sub]
  rw [signed_cast, shift]
  cases sign <;> simp [withSign] <;> ring

/-- An integer as a sign and a magnitude. -/
theorem withSign_of_int (n : ℤ) {sign : Bool} (h : n ≠ 0 → sign = decide (n < 0)) (e : ℤ) :
    (n : ℝ) * 2 ^ e = withSign sign (n.natAbs * 2 ^ e) := by
  rcases eq_or_ne n 0 with rfl | ne
  · cases sign <;> simp [withSign]
  · rw [h ne, withSign, Nat.cast_natAbs]
    rcases lt_or_ge n 0 with neg | pos
    · simp [neg, abs_of_neg neg]
    · simp [not_lt.2 pos, abs_of_nonneg pos]

theorem fpAdd_fin {t : FpFormat} (ht : Ieee t) (rm : BitVec 2) (sx sy : Bool) (mx my : Nat) (ex ey : ℤ) (tem : BitVec 5) :
    Rounds t rm (tem.getLsbD 2) (withSign sx (mx * 2 ^ ex) + withSign sy (my * 2 ^ ey))
      (if mx = 0 && my = 0 && sx = sy then sx else rm = 3) (fpAdd t rm (.fin sx mx ex) (.fin sy my ey)).bits
      ((fpAdd t rm (.fin sx mx ex) (.fin sy my ey)).exceptions tem) := by
  let sum : ℤ := signed sx (mx * 2 ^ (ex - min ex ey).toNat) + signed sy (my * 2 ^ (ey - min ex ey).toNat)
  let zeroNeg : Bool := if mx = 0 && my = 0 && sx = sy then sx else rm = 3
  have shape : fpAdd t rm (.fin sx mx ex) (.fin sy my ey) =
      roundFp t rm (if sum = 0 then zeroNeg else decide (sum < 0)) sum.natAbs (min ex ey) false := rfl
  have value : withSign sx (mx * 2 ^ ex) + withSign sy (my * 2 ^ ey) = (sum : ℝ) * 2 ^ min ex ey := by
    rw [← signed_shift sx mx (min_le_left ex ey), ← signed_shift sy my (min_le_right ex ey), ← add_mul, ← Int.cast_add]
  rw [shape]
  refine rounds_of_denotes ht rm (denotes_exact t _ _) (value.trans (withSign_of_int sum (fun ne => if_neg ne) _)) (fun zero => ?_) tem
  have none' : sum = 0 := by
    rcases mul_eq_zero.1 zero with zero | absurd'
    · exact Int.natAbs_eq_zero.1 (Nat.cast_eq_zero.1 zero)
    · exact absurd absurd' (by positivity)
  exact if_pos none'

/-- The second operand of a sum, or of a difference with its sign changed. -/
def addend (minus : Bool) (x : Fp) : Fp := if minus then x.neg else x

theorem addend_inf (minus sign : Bool) : addend minus (.inf sign) = .inf (sign ^^ minus) := by cases minus <;> cases sign <;> rfl

theorem addend_fin (minus sign : Bool) (m : Nat) (e : ℤ) : addend minus (.fin sign m e) = .fin (sign ^^ minus) m e := by
  cases minus <;> cases sign <;> rfl

theorem Shows.addend {t : FpFormat} {w : Nat} {x : Fp} (h : Shows t w x) (minus : Bool) : Shows t w (addend minus x) := by
  cases minus
  · exact h
  · exact h.neg

theorem withSign_xor (minus sign : Bool) (y : ℝ) : withSign (sign ^^ minus) y = if minus then -withSign sign y else withSign sign y := by
  cases minus <;> cases sign <;> simp [withSign]

/-- Sum and difference of two numbers. -/
theorem fpAdd_result {t : FpFormat} (h : t = single ∨ t = double) (rm : BitVec 2) (minus : Bool) (a b : Nat) (tem : BitVec 5) :
    SumResult t rm (tem.getLsbD 2) minus a b (fpAdd t rm (unpack t a) (addend minus (unpack t b))).bits
      ((fpAdd t rm (unpack t a) (addend minus (unpack t b))).exceptions tem) := by
  have ht := ieee_of h
  unfold SumResult
  dsimp only
  split
  · next nan => exact withNan2_nan ht (shows_unpack t a) ((shows_unpack t b).addend minus) _ tem nan
  · next nan =>
    rcases fp_classes t a with ⟨nanA, -, -⟩ | ⟨-, infA, finA⟩ | ⟨-, infA, finA⟩
    · exact absurd (by rw [nanA, Bool.true_or]) nan
    · rw [unpack_infinite infA, infA]
      rcases fp_classes t b with ⟨nanB, -, -⟩ | ⟨-, infB, finB⟩ | ⟨-, infB, finB⟩
      · exact absurd (by rw [nanB, Bool.or_true]) nan
      · rw [unpack_infinite infB, infB, addend_inf]
        have shape : fpAdd t rm (.inf (t.neg a)) (.inf (t.neg b ^^ minus)) =
            if t.neg a = (t.neg b ^^ minus) then { bits := infBits t (t.neg a) } else invalid t := rfl
        rw [shape]
        by_cases same : t.neg a = (t.neg b ^^ minus)
        · rw [if_pos same, ← same, Bool.xor_self, Bool.and_false, if_neg Bool.false_ne_true, if_pos rfl]
          exact ⟨rfl, quiet_result _ tem⟩
        · rw [if_neg same, if_pos (by simpa using same)]
          exact invalid_result h tem
      · rw [unpack_finite finB, infB, addend_fin, if_neg (by simp), if_pos rfl]
        exact ⟨rfl, quiet_result _ tem⟩
    · rw [unpack_finite finA, infA]
      rcases fp_classes t b with ⟨nanB, -, -⟩ | ⟨-, infB, finB⟩ | ⟨-, infB, finB⟩
      · exact absurd (by rw [nanB, Bool.or_true]) nan
      · rw [unpack_infinite infB, infB, addend_inf, if_neg (by simp), if_neg Bool.false_ne_true, if_pos rfl]
        exact ⟨rfl, quiet_result _ tem⟩
      · rw [unpack_finite finB, infB, addend_fin, if_neg (by simp), if_neg Bool.false_ne_true, if_neg Bool.false_ne_true]
        have value : (((t.value a + if minus then -t.value b else t.value b : ℚ)) : ℝ) =
            withSign (t.neg a) (mantissa t a * 2 ^ exponent t a) + withSign (t.neg b ^^ minus) (mantissa t b * 2 ^ exponent t b) := by
          rw [Rat.cast_add, value_fin finA, withSign_xor, ← value_fin finB]
          split <;> simp
        have sign : (if (t.zero a && t.zero b && (t.neg a == (t.neg b ^^ minus))) = true then (t.neg b ^^ minus) else decide (rm = 3)) =
            if mantissa t a = 0 && mantissa t b = 0 && t.neg a = (t.neg b ^^ minus) then t.neg a else decide (rm = 3) := by
          rw [zero_eq_mantissa, zero_eq_mantissa]
          by_cases same : t.neg a = (t.neg b ^^ minus)
          · simp [← same]
          · simp [same]
        rw [value, sign]
        exact fpAdd_fin ht rm _ _ _ _ _ _ tem

end Sys2Proof.Proofs

/-! PROOFS. Products, quotients, roots, conversions, and the arithmetic operations of the FPU as instructions (44 R571 to R590). -/

namespace Sys2Proof.Proofs

open Sys2Proof Sys2Proof.Machine

/-! ### Products -/

theorem withSign_mul (b c : Bool) (x y : ℝ) : withSign b x * withSign c y = withSign (b ^^ c) (x * y) := by
  cases b <;> cases c <;> simp [withSign]

theorem withSign_div (b c : Bool) (x y : ℝ) : withSign b x / withSign c y = withSign (b ^^ c) (x / y) := by
  cases b <;> cases c <;> simp [withSign, neg_div, div_neg]

theorem fpMul_fin (src : FpFormat) {dst : FpFormat} (hd : Ieee dst) (rm : BitVec 2) (sx sy : Bool) (mx my : Nat) (ex ey : ℤ) (tem : BitVec 5) :
    Rounds dst rm (tem.getLsbD 2) (withSign sx (mx * 2 ^ ex) * withSign sy (my * 2 ^ ey)) (sx ^^ sy)
      (fpMul src dst rm (.fin sx mx ex) (.fin sy my ey)).bits ((fpMul src dst rm (.fin sx mx ex) (.fin sy my ey)).exceptions tem) := by
  have shape : fpMul src dst rm (.fin sx mx ex) (.fin sy my ey) = roundFp dst rm (sx ^^ sy) (mx * my) (ex + ey) false := rfl
  have value : withSign sx (mx * 2 ^ ex) * withSign sy (my * 2 ^ ey) = withSign (sx ^^ sy) (((mx * my : Nat) : ℝ) * 2 ^ (ex + ey)) := by
    rw [withSign_mul, zpow_add₀ two_ne_zero]
    congr 1
    push_cast
    ring
  rw [shape]
  exact rounds_of_denotes hd rm (denotes_exact dst _ _) value (fun _ => rfl) tem

/-- Product of two numbers. -/
theorem fpMul_result {src dst : FpFormat} (hs : Ieee src) (h : dst = single ∨ dst = double) (rm : BitVec 2) (a b : Nat) (tem : BitVec 5) :
    ProductResult src dst rm (tem.getLsbD 2) a b (fpMul src dst rm (unpack src a) (unpack src b)).bits
      ((fpMul src dst rm (unpack src a) (unpack src b)).exceptions tem) := by
  have hd := ieee_of h
  unfold ProductResult
  dsimp only
  split
  · next nan => exact withNan2_nan hd (shows_unpack src a) (shows_unpack src b) _ tem nan
  · next nan =>
    rcases fp_classes src a with ⟨nanA, -, -⟩ | ⟨-, infA, finA⟩ | ⟨-, infA, finA⟩
    · exact absurd (by rw [nanA, Bool.true_or]) nan
    · rw [unpack_infinite infA, infA, zero_of_infinite hs infA]
      rcases fp_classes src b with ⟨nanB, -, -⟩ | ⟨-, infB, finB⟩ | ⟨-, infB, finB⟩
      · exact absurd (by rw [nanB, Bool.or_true]) nan
      · rw [unpack_infinite infB, infB, zero_of_infinite hs infB, if_neg (by simp), if_pos (by simp)]
        exact ⟨rfl, quiet_result _ tem⟩
      · have shape : fpMul src dst rm (.inf (src.neg a)) (.fin (src.neg b) (mantissa src b) (exponent src b)) =
            if mantissa src b = 0 then invalid dst else { bits := infBits dst (src.neg a ^^ src.neg b) } := rfl
        rw [unpack_finite finB, infB, zero_eq_mantissa src b, shape]
        by_cases zero : mantissa src b = 0
        · rw [if_pos (by simp [zero]), if_pos zero]
          exact invalid_result h tem
        · rw [if_neg (by simp [zero]), if_pos (by simp), if_neg zero]
          exact ⟨rfl, quiet_result _ tem⟩
    · rw [unpack_finite finA, infA, zero_eq_mantissa src a]
      rcases fp_classes src b with ⟨nanB, -, -⟩ | ⟨-, infB, finB⟩ | ⟨-, infB, finB⟩
      · exact absurd (by rw [nanB, Bool.or_true]) nan
      · have shape : fpMul src dst rm (.fin (src.neg a) (mantissa src a) (exponent src a)) (.inf (src.neg b)) =
            if mantissa src a = 0 then invalid dst else { bits := infBits dst (src.neg a ^^ src.neg b) } := rfl
        rw [unpack_infinite infB, infB, shape]
        by_cases zero : mantissa src a = 0
        · rw [if_pos (by simp [zero]), if_pos zero]
          exact invalid_result h tem
        · rw [if_neg (by simp [zero]), if_pos (by simp), if_neg zero]
          exact ⟨rfl, quiet_result _ tem⟩
      · rw [unpack_finite finB, infB, if_neg (by simp), if_neg (by simp), Rat.cast_mul, value_fin finA, value_fin finB]
        exact fpMul_fin src hd rm _ _ _ _ _ _ tem

/-! ### Quotients -/

/-- The places of a quotient, with a sticky bit for the remainder. -/
theorem denotes_quotient (t : FpFormat) {mx my : Nat} (hy : my ≠ 0) (ex ey : ℤ) :
    Denotes t (mx * 2 ^ (t.mb + 3 + Nat.log2 my) / my) (ex - ey - (t.mb + 3 + Nat.log2 my : Nat))
      (decide (mx * 2 ^ (t.mb + 3 + Nat.log2 my) % my ≠ 0)) ((mx * 2 ^ ex) / (my * 2 ^ ey)) := by
  have pos : 0 < my := Nat.pos_of_ne_zero hy
  have pos' : (0 : ℝ) < my := Nat.cast_pos.2 pos
  have unit' : (0 : ℝ) < 2 ^ (ex - ey - (t.mb + 3 + Nat.log2 my : Nat)) := by positivity
  have value : ((mx : ℝ) * 2 ^ ex) / (my * 2 ^ ey) =
      ((mx * 2 ^ (t.mb + 3 + Nat.log2 my) : Nat) : ℝ) / my * 2 ^ (ex - ey - (t.mb + 3 + Nat.log2 my : Nat)) := by
    have scale : (2 : ℝ) ^ ex = 2 ^ (t.mb + 3 + Nat.log2 my) * 2 ^ ey * 2 ^ (ex - ey - (t.mb + 3 + Nat.log2 my : Nat)) := by
      rw [← zpow_natCast, ← zpow_add₀ two_ne_zero, ← zpow_add₀ two_ne_zero]
      congr 1
      ring
    rw [scale]
    push_cast
    field_simp
  have split := Nat.div_add_mod (mx * 2 ^ (t.mb + 3 + Nat.log2 my)) my
  have rest := Nat.mod_lt (mx * 2 ^ (t.mb + 3 + Nat.log2 my)) pos
  have long (some' : mx ≠ 0) : 2 ^ (t.mb + 1) ≤ mx * 2 ^ (t.mb + 3 + Nat.log2 my) / my := by
    rw [Nat.le_div_iff_mul_le pos]
    have most := (Nat.lt_log2_self (n := my)).le
    calc 2 ^ (t.mb + 1) * my ≤ 2 ^ (t.mb + 1) * 2 ^ (Nat.log2 my + 1) := Nat.mul_le_mul_left _ most
      _ = 2 ^ (t.mb + 2 + Nat.log2 my) := by ring
      _ ≤ 2 ^ (t.mb + 3 + Nat.log2 my) := Nat.pow_le_pow_right (by omega) (by omega)
      _ ≤ mx * 2 ^ (t.mb + 3 + Nat.log2 my) := Nat.le_mul_of_pos_left _ (Nat.pos_of_ne_zero some')
  rw [value]
  generalize hn : mx * 2 ^ (t.mb + 3 + Nat.log2 my) = n at *
  have whole : (n : ℝ) = my * (n / my : Nat) + (n % my : Nat) := by exact_mod_cast split.symm
  constructor
  · intro none'
    have zero : n % my = 0 := by simpa using none'
    rw [zero, Nat.cast_zero, add_zero] at whole
    rw [whole]
    field_simp
  · intro some'
    have rest' : 0 < n % my := Nat.pos_of_ne_zero (by simpa using some')
    have ne : mx ≠ 0 := by
      rintro rfl
      rw [Nat.zero_mul] at hn
      rw [← hn, Nat.zero_mod] at rest'
      exact absurd rest' (lt_irrefl 0)
    have low : (0 : ℝ) < (n % my : Nat) := Nat.cast_pos.2 rest'
    have high : ((n % my : Nat) : ℝ) < my := Nat.cast_lt.2 rest
    refine ⟨long ne, mul_lt_mul_of_pos_right ?_ unit', mul_lt_mul_of_pos_right ?_ unit'⟩
    · rw [lt_div_iff₀ pos']
      linarith
    · rw [div_lt_iff₀ pos']
      linarith

theorem fpDiv_fin {t : FpFormat} (ht : Ieee t) (rm : BitVec 2) (sx sy : Bool) (mx : Nat) {my : Nat} (hy : my ≠ 0) (ex ey : ℤ) (tem : BitVec 5) :
    Rounds t rm (tem.getLsbD 2) (withSign sx (mx * 2 ^ ex) / withSign sy (my * 2 ^ ey)) (sx ^^ sy)
      (fpDiv t rm (.fin sx mx ex) (.fin sy my ey)).bits ((fpDiv t rm (.fin sx mx ex) (.fin sy my ey)).exceptions tem) := by
  have shape : fpDiv t rm (.fin sx mx ex) (.fin sy my ey) =
      if my = 0 then (if mx = 0 then invalid t else { bits := infBits t (sx ^^ sy), dz := true })
      else roundFp t rm (sx ^^ sy) (mx * 2 ^ (t.mb + 3 + Nat.log2 my) / my) (ex - ey - (t.mb + 3 + Nat.log2 my : Nat))
        (decide (mx * 2 ^ (t.mb + 3 + Nat.log2 my) % my ≠ 0)) := rfl
  rw [shape, if_neg hy]
  exact rounds_of_denotes ht rm (denotes_quotient t hy ex ey) (withSign_div _ _ _ _) (fun _ => rfl) tem

/-- Quotient of two numbers. -/
theorem fpDiv_result {t : FpFormat} (h : t = single ∨ t = double) (rm : BitVec 2) (a b : Nat) (tem : BitVec 5) :
    QuotientResult t rm (tem.getLsbD 2) a b (fpDiv t rm (unpack t a) (unpack t b)).bits
      ((fpDiv t rm (unpack t a) (unpack t b)).exceptions tem) := by
  have ht := ieee_of h
  unfold QuotientResult
  dsimp only
  split
  · next nan => exact withNan2_nan ht (shows_unpack t a) (shows_unpack t b) _ tem nan
  · next nan =>
    rcases fp_classes t a with ⟨nanA, -, -⟩ | ⟨-, infA, finA⟩ | ⟨-, infA, finA⟩
    · exact absurd (by rw [nanA, Bool.true_or]) nan
    · rw [unpack_infinite infA, infA, zero_of_infinite ht infA]
      rcases fp_classes t b with ⟨nanB, -, -⟩ | ⟨-, infB, finB⟩ | ⟨-, infB, finB⟩
      · exact absurd (by rw [nanB, Bool.or_true]) nan
      · rw [unpack_infinite infB, infB, if_pos (by simp)]
        exact invalid_result h tem
      · rw [unpack_finite finB, infB, if_neg (by simp), if_pos rfl]
        exact ⟨rfl, quiet_result _ tem⟩
    · rw [unpack_finite finA, infA, zero_eq_mantissa _ a]
      rcases fp_classes t b with ⟨nanB, -, -⟩ | ⟨-, infB, finB⟩ | ⟨-, infB, finB⟩
      · exact absurd (by rw [nanB, Bool.or_true]) nan
      · rw [unpack_infinite infB, infB, zero_of_infinite ht infB, if_neg (by simp), if_neg (by simp), if_pos rfl]
        exact ⟨rfl, quiet_result _ tem⟩
      · rw [unpack_finite finB, infB, zero_eq_mantissa _ b]
        by_cases zero : mantissa t b = 0
        · have shape : fpDiv t rm (.fin (t.neg a) (mantissa t a) (exponent t a)) (.fin (t.neg b) (mantissa t b) (exponent t b)) =
              if mantissa t a = 0 then invalid t else { bits := infBits t (t.neg a ^^ t.neg b), dz := true } := if_pos zero
          rw [shape]
          by_cases zeroA : mantissa t a = 0
          · rw [if_pos (by simp [zero, zeroA]), if_pos zeroA]
            exact invalid_result h tem
          · rw [if_neg (by simp [zeroA]), if_neg (by simp), if_neg (by simp), if_pos (by simp [zero]), if_neg zeroA]
            exact ⟨rfl, by simp [FpResult.exceptions, b1]⟩
        · rw [if_neg (by simp [zero]), if_neg (by simp), if_neg (by simp), if_neg (by simp [zero]), Rat.cast_div, value_fin finA,
            value_fin finB]
          exact fpDiv_fin ht rm _ _ _ zero _ _ tem

end Sys2Proof.Proofs

/-! PROOFS. Roots, conversions, and the arithmetic operations of the FPU as instructions (44 R571 to R590). -/

namespace Sys2Proof.Proofs

open Sys2Proof Sys2Proof.Machine

/-! ### Roots -/

/-- Bit by bit, `isqrt` finds the integer square root. -/
theorem isqrt_spec (n b r : Nat) (low : r * r ≤ n) (high : n < (r + 2 ^ b) * (r + 2 ^ b)) :
    isqrt n b r * isqrt n b r ≤ n ∧ n < (isqrt n b r + 1) * (isqrt n b r + 1) := by
  induction b generalizing r with
  | zero => exact ⟨low, high⟩
  | succ b ih =>
    unfold isqrt
    split
    · next fits =>
      refine ih _ fits ?_
      rwa [show r + 2 ^ b + 2 ^ b = r + 2 ^ (b + 1) by ring]
    · next beyond => exact ih _ low (not_le.1 beyond)

theorem mantissa_lt (t : FpFormat) (w : Nat) : mantissa t w < 2 ^ (t.mb + 1) := by
  have frac : t.fracOf w < 2 ^ t.mb := Nat.mod_lt _ (by positivity)
  have two : 2 ^ (t.mb + 1) = 2 ^ t.mb + 2 ^ t.mb := by ring
  unfold mantissa
  split <;> omega

/-- The places of a root, with a sticky bit for what remains. -/
theorem denotes_root {t : FpFormat} (short : t.mb ≤ 52) {m : Nat} (hm : m ≠ 0) (bound : m < 2 ^ (t.mb + 1)) (e : ℤ) :
    Denotes t (isqrt (m * 2 ^ (2 * t.mb + 8 + e.natAbs % 2)) 90 0) ((e - (2 * t.mb + 8 + e.natAbs % 2 : Nat)) / 2)
      (decide (isqrt (m * 2 ^ (2 * t.mb + 8 + e.natAbs % 2)) 90 0 * isqrt (m * 2 ^ (2 * t.mb + 8 + e.natAbs % 2)) 90 0 ≠
        m * 2 ^ (2 * t.mb + 8 + e.natAbs % 2))) (Real.sqrt (m * 2 ^ e)) := by
  obtain ⟨k, hk⟩ : ∃ k, k = 2 * t.mb + 8 + e.natAbs % 2 := ⟨_, rfl⟩
  obtain ⟨h, hh⟩ : ∃ h : ℤ, e - k = 2 * h := ⟨(e - k) / 2, by omega⟩
  rw [← hk, hh, Int.mul_ediv_cancel_left _ two_ne_zero]
  have top : m * 2 ^ k < (0 + 2 ^ 90) * (0 + 2 ^ 90) := by
    calc m * 2 ^ k < 2 ^ (t.mb + 1) * 2 ^ k := Nat.mul_lt_mul_of_pos_right bound (by positivity)
      _ = 2 ^ (t.mb + 1 + k) := by ring
      _ ≤ 2 ^ 180 := Nat.pow_le_pow_right (by omega) (by omega)
      _ = _ := by norm_num
  obtain ⟨low, high⟩ := isqrt_spec (m * 2 ^ k) 90 0 (Nat.zero_le _) top
  have unit' : (0 : ℝ) < 2 ^ h := by positivity
  have value : Real.sqrt (m * 2 ^ e) = Real.sqrt (m * 2 ^ k : Nat) * 2 ^ h := by
    have scale : (2 : ℝ) ^ e = 2 ^ k * (2 ^ h) ^ 2 := by
      rw [← zpow_natCast, ← zpow_natCast, ← zpow_mul, ← zpow_add₀ two_ne_zero]
      congr 1
      push_cast
      omega
    rw [scale, ← mul_assoc, Real.sqrt_mul (by positivity), Real.sqrt_sq unit'.le]
    push_cast
    rfl
  rw [value]
  generalize isqrt (m * 2 ^ k) 90 0 = r at low high
  have long : 2 ^ (t.mb + 1) ≤ r := by
    by_contra less
    have square : (r + 1) * (r + 1) ≤ 2 ^ (t.mb + 1) * 2 ^ (t.mb + 1) := Nat.mul_le_mul (by omega) (by omega)
    have most : 2 ^ (t.mb + 1) * 2 ^ (t.mb + 1) ≤ m * 2 ^ k := by
      rw [← pow_add]
      exact (Nat.pow_le_pow_right (by omega) (by omega)).trans (Nat.le_mul_of_pos_left _ (Nat.pos_of_ne_zero hm))
    omega
  constructor
  · intro exact'
    have square : r * r = m * 2 ^ k := by simpa using exact'
    rw [← square, Nat.cast_mul, Real.sqrt_mul_self (Nat.cast_nonneg r)]
  · intro inexact
    have ne : r * r ≠ m * 2 ^ k := by simpa using inexact
    refine ⟨long, mul_lt_mul_of_pos_right ?_ unit', mul_lt_mul_of_pos_right ?_ unit'⟩
    · rw [Real.lt_sqrt (Nat.cast_nonneg r), sq]
      exact_mod_cast lt_of_le_of_ne low ne
    · rw [Real.sqrt_lt' (by positivity), sq]
      exact_mod_cast high

theorem fpSqrt_fin {t : FpFormat} (ht : Ieee t) (short : t.mb ≤ 52) (rm : BitVec 2) {m : Nat} (hm : m ≠ 0) (bound : m < 2 ^ (t.mb + 1))
    (e : ℤ) (tem : BitVec 5) :
    Rounds t rm (tem.getLsbD 2) (Real.sqrt (m * 2 ^ e)) false (fpSqrt t rm (.fin false m e)).bits
      ((fpSqrt t rm (.fin false m e)).exceptions tem) := by
  have shape : fpSqrt t rm (.fin false m e) =
      if m = 0 then { bits := signBit t false }
      else roundFp t rm false (isqrt (m * 2 ^ (2 * t.mb + 8 + e.natAbs % 2)) 90 0) ((e - (2 * t.mb + 8 + e.natAbs % 2 : Nat)) / 2)
        (decide (isqrt (m * 2 ^ (2 * t.mb + 8 + e.natAbs % 2)) 90 0 * isqrt (m * 2 ^ (2 * t.mb + 8 + e.natAbs % 2)) 90 0 ≠
          m * 2 ^ (2 * t.mb + 8 + e.natAbs % 2))) := rfl
  rw [shape, if_neg hm]
  exact rounds_of_denotes ht rm (denotes_root short hm bound e) rfl (fun _ => rfl) tem

/-- Square root of a number. -/
theorem fpSqrt_result {t : FpFormat} (h : t = single ∨ t = double) (rm : BitVec 2) (a : Nat) (tem : BitVec 5) :
    RootResult t rm (tem.getLsbD 2) a (fpSqrt t rm (unpack t a)).bits ((fpSqrt t rm (unpack t a)).exceptions tem) := by
  have ht := ieee_of h
  unfold RootResult
  split
  · next nan => exact withNan1_nan ht (shows_unpack t a) _ tem nan
  · next nan =>
    rcases fp_classes t a with ⟨nanA, -, -⟩ | ⟨-, infA, finA⟩ | ⟨-, infA, finA⟩
    · exact absurd nanA nan
    · have shape : fpSqrt t rm (.inf (t.neg a)) = if t.neg a then invalid t else { bits := infBits t false } := rfl
      rw [unpack_infinite infA, infA, zero_of_infinite ht infA, if_neg Bool.false_ne_true, shape]
      split
      · exact invalid_result h tem
      · exact ⟨rfl, quiet_result _ tem⟩
    · have shape : fpSqrt t rm (.fin true (mantissa t a) (exponent t a)) =
          if mantissa t a = 0 then { bits := signBit t true } else invalid t := rfl
      rw [unpack_finite finA, infA, zero_eq_mantissa _ a]
      by_cases zero : mantissa t a = 0
      · have zeroShape : fpSqrt t rm (.fin (t.neg a) (mantissa t a) (exponent t a)) = { bits := signBit t (t.neg a) } := if_pos zero
        rw [if_pos (by simp [zero]), zeroShape]
        exact ⟨rfl, quiet_result _ tem⟩
      · rw [if_neg (by simp [zero]), value_fin finA]
        cases t.neg a
        · rw [if_neg Bool.false_ne_true, if_neg Bool.false_ne_true]
          exact fpSqrt_fin ht (by rcases h with rfl | rfl <;> decide) rm zero (mantissa_lt t a) _ tem
        · rw [if_pos rfl, shape, if_neg zero]
          exact invalid_result h tem

/-! ### Conversions -/

/-- Conversion between the formats. -/
theorem fpConvert_result (src : FpFormat) {dst : FpFormat} (hd : Ieee dst) (rm : BitVec 2) (a : Nat) (tem : BitVec 5) :
    ConvertResult src dst rm (tem.getLsbD 2) a (fpConvert src dst rm (unpack src a)).bits
      ((fpConvert src dst rm (unpack src a)).exceptions tem) := by
  unfold ConvertResult
  split
  · next nan => exact withNan1_nan hd (shows_unpack src a) _ tem nan
  · next nan =>
    rcases fp_classes src a with ⟨nanA, -, -⟩ | ⟨-, infA, finA⟩ | ⟨-, infA, finA⟩
    · exact absurd nanA nan
    · rw [unpack_infinite infA, infA, if_pos rfl]
      exact ⟨rfl, quiet_result _ tem⟩
    · rw [unpack_finite finA, infA, if_neg Bool.false_ne_true, value_fin finA]
      exact rounds_of_denotes hd rm (denotes_exact dst _ _) rfl (fun _ => rfl) tem

/-- Integer to floating point. -/
theorem fpOfInt_result {t : FpFormat} (ht : Ieee t) (rm : BitVec 2) (w : Word) (tem : BitVec 5) :
    Rounds t rm (tem.getLsbD 2) w.toInt false (fpOfInt t rm w).bits ((fpOfInt t rm w).exceptions tem) := by
  refine rounds_of_denotes ht rm (denotes_exact t w.toInt.natAbs 0) ?_ (fun zero => ?_) tem
  · rw [zpow_zero, mul_one, withSign_natAbs]
  · rw [zpow_zero, mul_one, Nat.cast_eq_zero, Int.natAbs_eq_zero] at zero
    rw [BitVec.msb_eq_toInt, zero]
    rfl

/-- Floating point to integer. -/
theorem fpToInt_result (t : FpFormat) (a : Nat) (tem : BitVec 5) :
    IntegerResult t a (fpToInt (unpack t a)).bits ((fpToInt (unpack t a)).exceptions tem) := by
  unfold IntegerResult
  dsimp only
  have outside (b : Bool) : (invalidInt b).bits = (if b then 0x80000000 else 0x7FFFFFFF) ∧ (invalidInt b).exceptions tem = 0b10000 :=
    ⟨rfl, exceptions_only_nv _ true tem⟩
  rcases fp_classes t a with ⟨nan, -, fin⟩ | ⟨-, inf, fin⟩ | ⟨-, -, fin⟩
  · rw [unpack_nan nan, fin, if_neg Bool.false_ne_true]
    exact outside _
  · rw [unpack_infinite inf, fin, if_neg Bool.false_ne_true]
    exact outside _
  · rw [unpack_finite fin, fin, if_pos rfl, fpToInt_fin]
    obtain ⟨floor, ceil, inexact⟩ := integerPart_spec (mantissa t a) (exponent t a)
    have value : t.value a = (if t.neg a then -1 else 1) * (mantissa t a * (2 : ℚ) ^ exponent t a) := by rw [value_mantissa, mul_assoc]
    have nonneg : (0 : ℚ) ≤ mantissa t a * 2 ^ exponent t a := by positivity
    generalize (mantissa t a : ℚ) * 2 ^ exponent t a = y at floor ceil inexact value nonneg
    have abs_value : |t.value a| = y := by
      rw [value]
      split <;> simp [abs_of_nonneg nonneg]
    have abs_part : |((signed (t.neg a) (integerPart (mantissa t a) (exponent t a)) : ℤ) : ℚ)| =
        integerPart (mantissa t a) (exponent t a) := by
      unfold signed
      split <;> simp
    refine ⟨signed (t.neg a) (integerPart (mantissa t a) (exponent t a)), ?_, ?_, ?_, ?_⟩
    · rwa [abs_value, abs_part]
    · rwa [abs_value, abs_part]
    · rw [value, signed]
      split
      · have := mul_nonneg (Nat.cast_nonneg (α := ℚ) (integerPart (mantissa t a) (exponent t a))) nonneg
        push_cast
        linarith
      · have := mul_nonneg (Nat.cast_nonneg (α := ℚ) (integerPart (mantissa t a) (exponent t a))) nonneg
        push_cast
        linarith
    · have same : ((signed (t.neg a) (integerPart (mantissa t a) (exponent t a)) : ℤ) : ℚ) = t.value a ↔
          (integerPart (mantissa t a) (exponent t a) : ℚ) = y := by
        rw [value, signed]
        split <;> simp
      split
      · next inside =>
        rw [if_neg (by omega)]
        refine ⟨rfl, ?_⟩
        by_cases whole : (integerPart (mantissa t a) (exponent t a) : ℚ) = y
        · rw [if_pos (same.2 whole), Bool.eq_false_iff.2 (mt inexact.1 (not_not.2 whole))]
          simp [FpResult.exceptions, b1]
        · rw [if_neg (mt same.1 whole), inexact.2 whole]
          simp [FpResult.exceptions, b1]
      · next beyond =>
        rw [if_pos (by omega)]
        exact outside _

end Sys2Proof.Proofs

/-! PROOFS. The operations that are exact in double, and every arithmetic operation of the FPU as an instruction (44 R560 to R590). -/

namespace Sys2Proof.Proofs

open Sys2Proof Sys2Proof.Machine

/-! ### Operations on singles that are exact in double -/

/-- The exponents of finite numbers. -/
theorem exponent_bounds {t : FpFormat} (ht : Ieee t) {w : Nat} (fin : t.finite w = true) :
    1 - (t.bias : ℤ) - t.mb ≤ exponent t w ∧ exponent t w ≤ t.bias - t.mb := by
  have bound : t.expOf w < 2 ^ t.eb := Nat.mod_lt _ (by positivity)
  have ne : t.expOf w ≠ 2 ^ t.eb - 1 := by simpa [FpFormat.finite] using fin
  have := ht.exponents
  have := ht.room
  unfold exponent
  split <;> omega

/-- A product of up to 53 bits with a moderate exponent is exact in double. -/
theorem roundFp_double_exact (rm : BitVec 2) (sign : Bool) {m : Nat} (hm : m < 2 ^ 53) {e : ℤ} (low : -900 ≤ e) (high : e ≤ 900)
    (tem : BitVec 5) :
    let r := roundFp double rm sign m e false
    r.exceptions tem = 0 ∧ double.finite r.bits = true ∧ double.neg r.bits = sign ∧
      ((double.value r.bits : ℚ) : ℝ) = withSign sign (m * 2 ^ e) := by
  have bias : double.bias = 1023 := rfl
  have mb : double.mb = 52 := rfl
  have unit' : (0 : ℝ) < 2 ^ e := by positivity
  refine roundFp_exact ieee_double rm sign hm (by omega) ?_ (fun ne => ?_) tem
  · have short : (m : ℝ) < 2 ^ (53 : ℤ) := by exact_mod_cast hm
    calc (m : ℝ) * 2 ^ e < 2 ^ (53 : ℤ) * 2 ^ e := mul_lt_mul_of_pos_right short unit'
      _ = 2 ^ (53 + e) := (zpow_add₀ two_ne_zero _ _).symm
      _ ≤ 2 ^ ((1024 : Nat) : ℤ) := zpow_le_zpow_right₀ one_le_two (by omega)
      _ = 2 ^ (double.bias + 1) := zpow_natCast _ _
  · have one : (1 : ℝ) ≤ m := by exact_mod_cast Nat.one_le_iff_ne_zero.2 ne
    calc (2 : ℝ) ^ (1 - (double.bias : ℤ)) ≤ 2 ^ e := zpow_le_zpow_right₀ one_le_two (by omega)
      _ ≤ m * 2 ^ e := le_mul_of_one_le_left unit'.le one

theorem single_exponent_bounds {w : Nat} (fin : single.finite w = true) : -149 ≤ exponent single w ∧ exponent single w ≤ 104 :=
  exponent_bounds ieee_single fin

theorem fpConvert_fin_eq (src dst : FpFormat) (rm : BitVec 2) (sign : Bool) (m : Nat) (e : ℤ) :
    fpConvert src dst rm (.fin sign m e) = roundFp dst rm sign m e false := rfl

theorem fpMul_fin_eq (src dst : FpFormat) (rm : BitVec 2) (sx sy : Bool) (mx my : Nat) (ex ey : ℤ) :
    fpMul src dst rm (.fin sx mx ex) (.fin sy my ey) = roundFp dst rm (sx ^^ sy) (mx * my) (ex + ey) false := rfl

/-- FsTOd of a finite number. -/
theorem fpConvert_widens (rm : BitVec 2) {a : Nat} (fin : single.finite a = true) (tem : BitVec 5) :
    double.value (fpConvert single double rm (unpack single a)).bits = single.value a ∧
      (fpConvert single double rm (unpack single a)).exceptions tem = 0 := by
  obtain ⟨low, high⟩ := single_exponent_bounds fin
  have shape : fpConvert single double rm (unpack single a) =
      roundFp double rm (single.neg a) (mantissa single a) (exponent single a) false := by
    rw [unpack_finite fin, fpConvert_fin_eq]
  obtain ⟨quiet, -, -, value⟩ := roundFp_double_exact rm (single.neg a) ((mantissa_lt single a).trans (by decide)) (e := exponent single a)
    (by omega) (by omega) tem
  rw [shape]
  refine ⟨?_, quiet⟩
  rw [← value_fin fin] at value
  exact_mod_cast value

/-- FsMULd of finite numbers. -/
theorem fpMul_widens (rm : BitVec 2) {a b : Nat} (finA : single.finite a = true) (finB : single.finite b = true) (tem : BitVec 5) :
    double.value (fpMul single double rm (unpack single a) (unpack single b)).bits = single.value a * single.value b ∧
      (fpMul single double rm (unpack single a) (unpack single b)).exceptions tem = 0 := by
  obtain ⟨lowA, highA⟩ := single_exponent_bounds finA
  obtain ⟨lowB, highB⟩ := single_exponent_bounds finB
  have shape : fpMul single double rm (unpack single a) (unpack single b) =
      roundFp double rm (single.neg a ^^ single.neg b) (mantissa single a * mantissa single b) (exponent single a + exponent single b) false := by
    rw [unpack_finite finA, unpack_finite finB, fpMul_fin_eq]
  have short : mantissa single a * mantissa single b < 2 ^ 53 :=
    calc mantissa single a * mantissa single b < 2 ^ (single.mb + 1) * 2 ^ (single.mb + 1) :=
          Nat.mul_lt_mul'' (mantissa_lt single a) (mantissa_lt single b)
      _ ≤ 2 ^ 53 := by decide
  obtain ⟨quiet, -, -, value⟩ := roundFp_double_exact rm (single.neg a ^^ single.neg b) short (e := exponent single a + exponent single b)
    (by omega) (by omega) tem
  rw [shape]
  refine ⟨?_, quiet⟩
  have product : withSign (single.neg a ^^ single.neg b) ((mantissa single a * mantissa single b : Nat) * 2 ^ (exponent single a + exponent single b)) =
      ((single.value a * single.value b : ℚ) : ℝ) := by
    rw [Rat.cast_mul, value_fin finA, value_fin finB, withSign_mul, zpow_add₀ two_ne_zero]
    congr 1
    push_cast
    ring
  rw [product] at value
  exact_mod_cast value

/-! ### The instructions -/

section
variable {t : FpFormat} (h : t = single ∨ t = double) (rm : BitVec 2) (a b : Nat) (tem : BitVec 5)
include h

theorem fpSum_result : SumResult t rm (tem.getLsbD 2) false a b (fpAdd t rm (unpack t a) (unpack t b)).bits
    ((fpAdd t rm (unpack t a) (unpack t b)).exceptions tem) := fpAdd_result h rm false a b tem

theorem fpDifference_result : SumResult t rm (tem.getLsbD 2) true a b (fpAdd t rm (unpack t a) (unpack t b).neg).bits
    ((fpAdd t rm (unpack t a) (unpack t b).neg).exceptions tem) := fpAdd_result h rm true a b tem

end


section
variable {s : State} (fp : FpPlain s) (rd rs1 rs2 : RegNum)
include fp

theorem fpArith_ends (sub : Bool) (r : FpResult) {put : FpResult → State → State} {l : List (RegNum × Word)}
    (writes : ∀ u, CompletesF (.next (advance (put r u))) u l) : FpEnds (fpArith s sub r put) s (r.exceptions s.fsr.tem) l := by
  rw [fpArith_eq]
  refine ⟨fun quiet => ?_, fun on can => fpComplete_traps fp.1.2.2 can on _⟩
  have none' : s.fsr.tem &&& r.exceptions s.fsr.tem = 0 := by
    rcases quiet with zero | none'
    · rw [zero]
      exact BitVec.zero_and
    · exact none'
  rw [fpComplete_done none']
  exact writes _

theorem fpArith_ends_single (sub : Bool) (r : FpResult) :
    FpEnds (fpArith s sub r (putS rd)) s (r.exceptions s.fsr.tem) [(rd, BitVec.ofNat 32 r.bits)] :=
  fpArith_ends fp sub r fun u => completesF_writeF u rd _

theorem fpArith_ends_double (sub : Bool) (r : FpResult) :
    FpEnds (fpArith s sub r (putD rd)) s (r.exceptions s.fsr.tem)
      [(rd, BitVec.ofNat 32 (r.bits / 2 ^ 32)), (rd + 1, BitVec.ofNat 32 r.bits)] := by
  refine fpArith_ends fp sub r fun u => ?_
  rw [← Nat.shiftRight_eq_div_pow]
  exact completesF_writeFPair u rd _ _

theorem fpS2_ends (f : BitVec 2 → Fp → Fp → FpResult) {spec : Nat → BitVec 5 → Prop}
    (meets : spec (f s.fsr.rd (unpack single (s.single rs1)) (unpack single (s.single rs2))).bits
      ((f s.fsr.rd (unpack single (s.single rs1)) (unpack single (s.single rs2))).exceptions s.fsr.tem)) :
    ∃ w ex, spec w ex ∧ FpEnds (fpS2 s rd rs1 rs2 f) s ex [(rd, BitVec.ofNat 32 w)] := by
  refine ⟨_, _, meets, ?_⟩
  rw [fpS2, fpop_pass fp.1 fp.2.2, withS_clean fp.2.1, withS_clean fp.2.1]
  exact fpArith_ends_single fp rd _ _

theorem fpD2_ends (even : rd.toNat % 2 = 0) (even1 : rs1.toNat % 2 = 0) (even2 : rs2.toNat % 2 = 0) (f : BitVec 2 → Fp → Fp → FpResult)
    {spec : Nat → BitVec 5 → Prop}
    (meets : spec (f s.fsr.rd (unpack double (s.double rs1)) (unpack double (s.double rs2))).bits
      ((f s.fsr.rd (unpack double (s.double rs1)) (unpack double (s.double rs2))).exceptions s.fsr.tem)) :
    ∃ w ex, spec w ex ∧ FpEnds (fpD2 s rd rs1 rs2 f) s ex [(rd, BitVec.ofNat 32 (w / 2 ^ 32)), (rd + 1, BitVec.ofNat 32 w)] := by
  have valid : (oddReg rs1 || oddReg rs2 || oddReg rd) = false := by simp [oddReg_eq, even, even1, even2]
  refine ⟨_, _, meets, ?_⟩
  rw [fpD2, valid, fpop_pass fp.1 fp.2.2, withD_clean fp.2.1, withD_clean fp.2.1]
  exact fpArith_ends_double fp rd _ _

omit fp in
theorem oddReg_even {n : RegNum} (even : n.toNat % 2 = 0) : oddReg n = false := by simp [oddReg_eq, even]

end

/-- Settles O51. -/
theorem fpArithmeticResults : Obligations.FpArithmeticResults := by
  intro s rd rs1 rs2 fp rm ufm a b da db inS inD even
  obtain ⟨hp, fc, ef⟩ := id fp
  refine ⟨?_, ?_, ?_, ?_, ?_, ?_, ?_, fun even2 => ⟨?_, ?_⟩, fun evenD => ⟨?_, ?_, ?_, fun even2 => ⟨?_, fun even1 => ⟨?_, ?_, ?_, ?_⟩⟩⟩⟩
  · exact fpS2_ends fp rd rs1 rs2 (fpAdd single) (fpSum_result (.inl rfl) rm a b s.fsr.tem)
  · exact fpS2_ends fp rd rs1 rs2 (fun rm x y => fpAdd single rm x y.neg) (fpDifference_result (.inl rfl) rm a b s.fsr.tem)
  · exact fpS2_ends fp rd rs1 rs2 (fpMul single single) (fpMul_result ieee_single (.inl rfl) rm a b s.fsr.tem)
  · exact fpS2_ends fp rd rs1 rs2 (fpDiv single) (fpDiv_result (.inl rfl) rm a b s.fsr.tem)
  · refine ⟨_, _, fpSqrt_result (.inl rfl) rm b s.fsr.tem, ?_⟩
    change FpEnds (execFsqrts rd rs2 s) _ _ _
    rw [execFsqrts, fpop_pass hp ef, withS_clean fc]
    exact fpArith_ends_single fp rd _ _
  · refine ⟨_, _, fpOfInt_result ieee_single rm (s.f rs2) s.fsr.tem, ?_⟩
    change FpEnds (execFitos rd rs2 s) _ _ _
    rw [execFitos, fpop_pass hp ef, withF_clean fc]
    exact fpArith_ends_single fp rd _ _
  · refine ⟨_, _, fpToInt_result single b s.fsr.tem, ?_⟩
    change FpEnds (execFstoi rd rs2 s) _ _ _
    rw [execFstoi, fpop_pass hp ef, withS_clean fc]
    exact fpArith_ends_single fp rd _ _
  · refine ⟨_, _, fpConvert_result double ieee_single rm db s.fsr.tem, ?_⟩
    change FpEnds (execFdtos rd rs2 s) _ _ _
    rw [execFdtos, oddReg_even even2, fpop_pass hp ef, withD_clean fc]
    exact fpArith_ends_single fp rd _ _
  · refine ⟨_, _, fpToInt_result double db s.fsr.tem, ?_⟩
    change FpEnds (execFdtoi rd rs2 s) _ _ _
    rw [execFdtoi, oddReg_even even2, fpop_pass hp ef, withD_clean fc]
    exact fpArith_ends_single fp rd _ _
  · obtain ⟨quiet, finite, neg, value⟩ := fpOfInt_double rm (s.f rs2) s.fsr.tem
    refine ⟨_, _, ⟨finite, value, quiet, neg⟩, ?_⟩
    change FpEnds (execFitod rd rs2 s) _ _ _
    rw [execFitod, oddReg_even evenD, fpop_pass hp ef, withF_clean fc]
    exact fpArith_ends_double fp rd _ _
  · refine ⟨_, _, ⟨fpConvert_result single ieee_double rm b s.fsr.tem, fun fin => fpConvert_widens rm fin s.fsr.tem⟩, ?_⟩
    change FpEnds (execFstod rd rs2 s) _ _ _
    rw [execFstod, oddReg_even evenD, fpop_pass hp ef, withS_clean fc]
    exact fpArith_ends_double fp rd _ _
  · refine ⟨_, _, ⟨fpMul_result ieee_single (.inr rfl) rm a b s.fsr.tem, fun finA finB => fpMul_widens rm finA finB s.fsr.tem⟩, ?_⟩
    change FpEnds (execFsmuld rd rs1 rs2 s) _ _ _
    rw [execFsmuld, oddReg_even evenD, fpop_pass hp ef, withS_clean fc, withS_clean fc]
    exact fpArith_ends_double fp rd _ _
  · refine ⟨_, _, fpSqrt_result (.inr rfl) rm db s.fsr.tem, ?_⟩
    change FpEnds (execFsqrtd rd rs2 s) _ _ _
    rw [execFsqrtd, oddReg_even evenD, oddReg_even even2, Bool.or_self, fpop_pass hp ef, withD_clean fc]
    exact fpArith_ends_double fp rd _ _
  · exact fpD2_ends fp rd rs1 rs2 evenD even1 even2 (fpAdd double) (fpSum_result (.inr rfl) rm da db s.fsr.tem)
  · exact fpD2_ends fp rd rs1 rs2 evenD even1 even2 (fun rm x y => fpAdd double rm x y.neg) (fpDifference_result (.inr rfl) rm da db s.fsr.tem)
  · exact fpD2_ends fp rd rs1 rs2 evenD even1 even2 (fpMul double double) (fpMul_result ieee_double (.inr rfl) rm da db s.fsr.tem)
  · exact fpD2_ends fp rd rs1 rs2 evenD even1 even2 (fpDiv double) (fpDiv_result (.inr rfl) rm da db s.fsr.tem)

end Sys2Proof.Proofs

/-! PROOFS. Loads with the data cache on: a hit, wrong parity, a miss, and the forced misses of the alternate spaces (20_memory R242 to
R256). -/

namespace Sys2Proof.Proofs

open Sys2Proof Sys2Proof.Machine

/-! ### Reads through the data cache -/

/-- A load with the data cache on takes its part of the word that the cache or memory gives. -/
theorem withLoad_cached {s : State} {a : Word} (cached : CachedRam s a) (on : s.dev.ccr.getLsbD 2 = true) {use : CacheUse} {w : Word}
    {u : State} (read : cachedReadWord s use a = .ok w u) (sz : Size) (k : State → Word → Result) :
    withLoad s use a sz k = k u (subword w sz.bytes (a.toNat % 4)) := by
  have through : (cacheable a && cacheOn s.dev .dcache) = true := by
    rw [cacheOn_dcache on, cacheable_ram cached.1]
    rfl
  simp only [withLoad, dataRead, through, if_true, read]

/-- Another count of parity errors leaves RAM as it is. -/
theorem cachedRam_counted {s : State} {a : Word} (h : CachedRam s a) (n : Word) :
    CachedRam { s with dev := { s.dev with ccr3 := n } } a := h

/-- Another data cache leaves RAM as it is. -/
theorem cachedRam_withDcache {s : State} {a : Word} (h : CachedRam s a) (x : Cache) : CachedRam { s with dcache := x } a := h

theorem wordBase_mod (a : Word) : (wordBase a).toNat % 4 = 0 := by
  rw [wordBase_toNat]
  omega

theorem wordBase_wordBase (a : Word) : wordBase (wordBase a) = wordBase a := wordBase_of_aligned (wordBase_mod a)

/-- The ways below the one that hits do not hold the word. -/
theorem below_hit {c : CacheId} {x : Cache} {a : Word} {w : Nat} (hit : hitWay c x a = some w) :
    w < cacheWays c ∧ ∀ u < w, holdsWord c x a u = false :=
  have found := hitWayBelow_eq_some.1 hit
  ⟨found.1, found.2.2⟩

/-- A fill of the data cache with one word: it holds the word, used last, in a good line, and keeps all else. -/
theorem fillWay_word {s : State} (quiet : s.dev.ccr1.extractLsb' 11 3 ≠ 0b011#3) {w : Nat} (way : w < cacheWays .dcache) {b : Word}
    (low : ∀ u < w, holdsWord .dcache s.dcache b u = false) (m : Word) :
    ∃ x, fillWay s .dcache w b [(b, m)] = { s with dcache := x } ∧ Holds { s with dcache := x } .dcache b w m ∧
      UsedLast x .dcache b w ∧ OtherLinesKept s { s with dcache := x } .dcache b w [b] ∧ badTag { s with dcache := x } .dcache b w = false := by
  obtain ⟨frame, kept, good, -, last, -⟩ := fillWay_spec quiet w b [(b, m)] (c := .dcache)
  have holds := fillWay_holds quiet (words := [(b, m)]) (v := m) (c := .dcache) way low ⟨rfl, rfl, rfl⟩
    List.mem_cons_self (List.pairwise_singleton _ _)
  refine ⟨(fillWay s .dcache w b [(b, m)]).dcache, frame, ?_⟩
  have frame' : fillWay s .dcache w b [(b, m)] = { s with dcache := (fillWay s .dcache w b [(b, m)]).dcache } := frame
  rw [← frame']
  exact ⟨holds, last, kept, good⟩

/-- The outcome of a load that a fill of the data cache goes with. -/
theorem cacheFills_writeR {s : State} (inj : NoInjection s) {x : Cache} {b : Word} {w : Nat} (rd : RegNum) (v : Word)
    (holds : Holds { s with dcache := x } .dcache b w (s.wordAt b.toNat)) (last : UsedLast x .dcache b w)
    (kept : OtherLinesKept s { s with dcache := x } .dcache b w [b])
    (good : hitWay .dcache s.dcache b = none → badTag { s with dcache := x } .dcache b w = false)
    (same : hitWay .dcache s.dcache b = none ∨ hitWay .dcache s.dcache b = some w) :
    CacheFills s (.next (advance (writeR { s with dcache := x } rd v))) rd b v := by
  have regs := writeR_spec (s := { s with dcache := x }) inj rd v
  obtain ⟨i, frame⟩ := writeR_frame { s with dcache := x } rd v
  rw [frame] at regs ⊢
  exact ⟨_, w, rfl, regs, holds, last, kept, good, same, rfl⟩

section
variable {s : State} {b : Word} (al : b.toNat % 4 = 0) (cached : CachedRam s b) (on : s.dev.ccr.getLsbD 2 = true)
include al cached

omit al in
/-- A miss of an enabled cache fills a way of the set. -/
theorem allocate_word (miss : hitWay .dcache s.dcache b = none) (m : Word) :
    ∃ x w, allocate s .dcache b [(b, m)] = { s with dcache := x } ∧ Holds { s with dcache := x } .dcache b w m ∧ UsedLast x .dcache b w ∧
      OtherLinesKept s { s with dcache := x } .dcache b w [b] ∧ badTag { s with dcache := x } .dcache b w = false := by
  obtain ⟨w, way, filled, low⟩ := allocate_spec [(b, m)] (c := .dcache) (s := s) miss
  obtain ⟨x, frame, rest⟩ := fillWay_word cached.2.2.2.2.2.1 way low m
  exact ⟨x, w, filled.trans frame, rest⟩

omit cached in
theorem cachedReadWord_hit {w : Nat} (hit : hitWay .dcache s.dcache b = some w) (tag : badTag s .dcache b w = false)
    (word : badWord s .dcache b w = false) :
    ∃ l, UsedLast { s.dcache with lru := l } .dcache b w ∧
      cachedReadWord s .normal b = .ok (s.dcache.word (dataKey w b)).val { s with dcache := { s.dcache with lru := l } } := by
  have found := (cacheLookup_cases (s := s) (c := .dcache) (a := b)).1 w hit tag word
  refine ⟨(s.dcache.touch (cacheSet .dcache b) w).lru, touch_usedLast s.dcache .dcache b w, ?_⟩
  simp only [cachedReadWord, wordBase_of_aligned al, found]
  rfl

theorem cachedReadWord_bad {w : Nat} (hit : hitWay .dcache s.dcache b = some w)
    (bad : badTag s .dcache b w = true ∨ badWord s .dcache b w = true) (below : counterBelowMax .dcache (badTag s .dcache b w) s.dev.ccr3) :
    ∃ x, cachedReadWord s .normal b = .ok (s.wordAt b.toNat)
        { s with dcache := x, dev := { s.dev with ccr3 := countedError .dcache (badTag s .dcache b w) s.dev.ccr3 } } ∧
      Holds { s with dcache := x } .dcache b w (s.wordAt b.toNat) ∧ badTag { s with dcache := x } .dcache b w = false ∧
      OtherLinesKept s { s with dcache := x } .dcache b w [b] := by
  have found := (cacheLookup_cases (s := s) (c := .dcache) (a := b)).2.1 w hit bad below
  obtain ⟨way, low⟩ := below_hit hit
  have counted := cachedRam_counted cached (countedError .dcache (badTag s .dcache b w) s.dev.ccr3)
  obtain ⟨x, frame, holds, -, kept, good⟩ := fillWay_word counted.2.2.2.2.2.1 way low (s.wordAt b.toNat)
  refine ⟨x, ?_, holds, good, kept⟩
  simp only [cachedReadWord, wordBase_of_aligned al, found, busRead_cached counted al]
  exact congrArg _ frame

include on

theorem cachedReadWord_miss (miss : hitWay .dcache s.dcache b = none) :
    cachedReadWord s .normal b = .ok (s.wordAt b.toNat)
      (if s.dev.ccr.getLsbD 3 then allocate s .dcache b [(b, s.wordAt b.toNat)] else s) := by
  have found := (cacheLookup_cases (s := s) (c := .dcache) (a := b)).2.2 miss
  simp only [cachedReadWord, wordBase_of_aligned al, found, busRead_cached cached al, cacheEnabled_dcache on]

theorem cachedReadWord_forced {use : CacheUse} (forced : use ≠ .normal) :
    cachedReadWord s use b = .ok (s.wordAt b.toNat) (match hitWay .dcache s.dcache b with
      | some _ => updateCached s .dcache b 4 0 (s.wordAt b.toNat)
      | none => if use = .forceAllocate ∧ s.dev.ccr.getLsbD 3 = true then allocate s .dcache b [(b, s.wordAt b.toNat)] else s) := by
  have bus := busRead_cached cached al .iu false
  cases use with
  | normal => exact absurd rfl forced
  | forceAllocate =>
    simp only [cachedReadWord, wordBase_of_aligned al, bus, cacheEnabled_dcache on]
    cases hitWay .dcache s.dcache b <;> simp
  | forceUpdate =>
    simp only [cachedReadWord, wordBase_of_aligned al, bus]
    cases hitWay .dcache s.dcache b <;> simp

end

/-- What is read for a byte or halfword is read for its word. -/
theorem cachedReadWord_base (s : State) (use : CacheUse) (a : Word) : cachedReadWord s use a = cachedReadWord s use (wordBase a) := by
  simp only [cachedReadWord, wordBase_wordBase]

/-! ### Loads of a byte, halfword or word -/

section
variable {s : State} (inj : NoInjection s) {a : Word} (cached : CachedRam s a) (cachedBase : CachedRam s (wordBase a))
  (on : s.dev.ccr.getLsbD 2 = true) (rd : RegNum) {sz : Size} {ext f : Word → Word}
  (part : ∀ w, ext (subword w sz.bytes (a.toNat % 4)) = f w)
include inj cached cachedBase on part

theorem cachedLoad_of : CachedLoad s (withLoad s .normal a sz fun s2 v => .next (advance (writeR s2 rd (ext v)))) rd (wordBase a) f := by
  have al := wordBase_mod a
  have load {w : Word} {u : State} (read : cachedReadWord s .normal (wordBase a) = .ok w u) :
      (withLoad s .normal a sz fun s2 v => .next (advance (writeR s2 rd (ext v)))) = .next (advance (writeR u rd (f w))) := by
    rw [withLoad_cached cached on ((cachedReadWord_base s .normal a).trans read), part]
  refine ⟨fun w hit tag word => ?_, fun w hit bad below => ?_, fun miss enabled => ?_, fun miss frozen => ?_⟩
  · obtain ⟨l, last, read⟩ := cachedReadWord_hit al hit tag word
    rw [load read]
    exact ⟨l, last, completes_writeR (u := { s with dcache := { s.dcache with lru := l } }) inj rd _⟩
  · obtain ⟨x, read, holds, good, kept⟩ := cachedReadWord_bad al cachedBase hit bad below
    rw [load read]
    let u : State := { s with dcache := x, dev := { s.dev with ccr3 := countedError .dcache (badTag s .dcache (wordBase a) w) s.dev.ccr3 } }
    have regs := writeR_spec (s := u) inj rd (f (s.wordAt (wordBase a).toNat))
    obtain ⟨i, frame⟩ := writeR_frame u rd (f (s.wordAt (wordBase a).toNat))
    rw [frame] at regs
    rw [show writeR _ rd _ = _ from frame]
    exact ⟨_, rfl, regs, holds, good, kept, rfl⟩
  · obtain ⟨x, w, filled, holds, last, kept, good⟩ := allocate_word cachedBase miss (s.wordAt (wordBase a).toNat)
    rw [load (cachedReadWord_miss al cachedBase on miss), if_pos enabled, filled]
    exact cacheFills_writeR inj rd _ holds last kept (fun _ => good) (.inl miss)
  · rw [load (cachedReadWord_miss al cachedBase on miss), frozen, if_neg Bool.false_ne_true]
    exact completes_writeR inj rd _

/-- A forced miss refreshes a copy held; without one it fills as the space and the cache say. -/
theorem forcedLoad_of {use : CacheUse} (forced : use ≠ .normal) :
    let o := withLoad s use a sz fun s2 v => .next (advance (writeR s2 rd (ext v)))
    (hitWay .dcache s.dcache (wordBase a) ≠ none → CacheFills s o rd (wordBase a) (f (s.wordAt (wordBase a).toNat))) ∧
      (hitWay .dcache s.dcache (wordBase a) = none →
        if use = .forceAllocate ∧ s.dev.ccr.getLsbD 3 = true then CacheFills s o rd (wordBase a) (f (s.wordAt (wordBase a).toNat))
        else Completes o s rd (f (s.wordAt (wordBase a).toNat))) := by
  intro o
  have al := wordBase_mod a
  have read := cachedReadWord_forced al cachedBase on forced
  have load {u : State} (read : cachedReadWord s use (wordBase a) = .ok (s.wordAt (wordBase a).toNat) u) :
      o = .next (advance (writeR u rd (f (s.wordAt (wordBase a).toNat)))) := by
    rw [show o = _ from withLoad_cached cached on ((cachedReadWord_base s use a).trans read) sz _, part]
  constructor
  · intro held
    obtain ⟨w, hit⟩ := Option.ne_none_iff_exists'.1 held
    rw [hit] at read
    obtain ⟨frame, kept, holds, last⟩ := updateCached_spec cachedBase.2.2.2.2.2.1 (c := .dcache) (s := s) hit (s.wordAt (wordBase a).toNat)
    have frame' : updateCached s .dcache (wordBase a) 4 0 (s.wordAt (wordBase a).toNat) =
      { s with dcache := (updateCached s .dcache (wordBase a) 4 0 (s.wordAt (wordBase a).toNat)).dcache } := frame
    rw [frame'] at holds kept
    rw [load read]
    simp only
    rw [frame']
    exact cacheFills_writeR inj rd _ holds last kept (fun none' => absurd none' held) (.inr hit)
  · intro miss
    rw [miss] at read
    rw [load read]
    simp only
    split
    · obtain ⟨x, w, filled, holds, last, kept, good⟩ := allocate_word cachedBase miss (s.wordAt (wordBase a).toNat)
      rw [filled]
      exact cacheFills_writeR inj rd _ holds last kept (fun _ => good) (.inl miss)
    · exact completes_writeR inj rd _

end

end Sys2Proof.Proofs

/-! PROOFS. Doubleword loads with the data cache on: two reads of one line (20_memory R203, R242, R246). -/

namespace Sys2Proof.Proofs

open Sys2Proof Sys2Proof.Machine

/-! ### The two words of a doubleword -/

/-- Two words of one data line that no valid bit and no data word covers together. -/
structure LinePair (p q : Word) : Prop where
  line : SameLine .dcache p q
  bit : validBit .dcache q ≠ validBit .dcache p
  key : ∀ v w, dataKey v q ≠ dataKey w p

theorem dataKey_ne {p q : Word} (h : (q.extractLsb' 2 11).toNat ≠ (p.extractLsb' 2 11).toNat) (v w : Nat) : dataKey v q ≠ dataKey w p := by
  have hp := (p.extractLsb' 2 11).isLt
  have hq := (q.extractLsb' 2 11).isLt
  unfold dataKey
  omega

theorem LinePair.symm {p q : Word} (h : LinePair p q) : LinePair q p :=
  ⟨⟨h.line.1.symm, h.line.2.symm⟩, h.bit.symm, fun v w => (h.key w v).symm⟩

theorem linePair_doubleword {a : Word} (al : a.toNat % 8 = 0) : LinePair a (a + 4) := by
  have next := toNat_add_four al
  have field (s l : Nat) (w : Word) : (w.extractLsb' s l).toNat = w.toNat / 2 ^ s % 2 ^ l := by
    rw [BitVec.extractLsb'_toNat, Nat.shiftRight_eq_div_pow]
  refine ⟨⟨BitVec.eq_of_toNat_eq ?_, ?_⟩, ?_, dataKey_ne ?_⟩
  · rw [field, field, next]
    omega
  · simp only [cacheSet, field, next]
    omega
  · simp only [validBit, field, next]
    omega
  · rw [field, field, next]
    omega

/-! ### One read of the pair -/

/-- The data cache `x` after a normal read of the word at `p`, which fills way `w` if it fills one; what that leaves of the word at `q`. -/
structure ReadsWord (s : State) (p q : Word) (x : Cache) (w : Nat) : Prop where
  kept : OtherLinesKept s { s with dcache := x } .dcache p w [p]
  held : ∀ k, hitWay .dcache s.dcache p = some k → hitWay .dcache x p = some k ∧ x.word (dataKey k p) = s.dcache.word (dataKey k p)
  missed : hitWay .dcache s.dcache p = none →
    if s.dev.ccr.getLsbD 3 then Holds { s with dcache := x } .dcache p w (s.wordAt p.toNat) else hitWay .dcache x p = none
  frozen : s.dev.ccr.getLsbD 3 = false → x = { s.dcache with lru := x.lru }
  good : GoodIfHeld s p → GoodIfHeld { s with dcache := x } p
  otherMissed : hitWay .dcache s.dcache q = none → hitWay .dcache x q = none
  otherHeld : GoodIfHeld s q → ∀ k, hitWay .dcache s.dcache q = some k →
    hitWay .dcache x q = some k ∧ x.word (dataKey k q) = s.dcache.word (dataKey k q) ∧ badTag { s with dcache := x } .dcache q k = false ∧
      badWord { s with dcache := x } .dcache q k = false

/-- A hit, and a miss of a frozen cache, change the order of ways at most. -/
theorem readsWord_order {s : State} {p : Word} (still : hitWay .dcache s.dcache p ≠ none ∨ s.dev.ccr.getLsbD 3 = false)
    (q : Word) (w : Nat) (l : List (Nat × List Nat)) : ReadsWord s p q { s.dcache with lru := l } w := by
  have hits (y : Word) : hitWay .dcache { s.dcache with lru := l } y = hitWay .dcache s.dcache y := hitWay_tags rfl y
  refine ⟨⟨fun _ _ => rfl, fun _ _ => rfl⟩, fun k hit => ⟨(hits p).trans hit, rfl⟩, fun miss => ?_, fun _ => rfl, fun good k hit => ?_,
    (hits q).trans, fun good k hit => ⟨(hits q).trans hit, rfl, good k hit⟩⟩
  · rw [if_neg (by simpa [miss] using still)]
    exact (hits p).trans miss
  · exact good k ((hits p).symm.trans hit)

theorem afterRead_order {s : State} {p : Word} (still : hitWay .dcache s.dcache p ≠ none ∨ s.dev.ccr.getLsbD 3 = false) :
    ∃ l, afterRead s p = { s with dcache := { s.dcache with lru := l } } := by
  unfold afterRead
  split
  · next k hit => exact ⟨(s.dcache.touch (cacheSet .dcache p) k).lru, rfl⟩
  · next miss =>
    rw [if_neg (by simpa [miss] using still)]
    exact ⟨s.dcache.lru, rfl⟩

/-- A miss of an enabled cache fills a way. -/
theorem readsWord_fill {s : State} (quiet : s.dev.ccr1.extractLsb' 11 3 ≠ 0b011#3) {p q : Word} (pair : LinePair p q) {w : Nat}
    (way : w < cacheWays .dcache) (miss : hitWay .dcache s.dcache p = none) (enabled : s.dev.ccr.getLsbD 3 = true)
    (low : ∀ u < w, holdsWord .dcache s.dcache p u = false) :
    ∃ x, fillWay s .dcache w p [(p, s.wordAt p.toNat)] = { s with dcache := x } ∧ ReadsWord s p q x w := by
  obtain ⟨others, hitOthers⟩ := hitWay_fillWay quiet w p [(p, s.wordAt p.toNat)] (c := .dcache) pair.line pair.bit
  obtain ⟨x, frame, holds, -, kept, good⟩ := fillWay_word quiet way low (s.wordAt p.toNat)
  rw [frame] at others hitOthers
  have word (k : Nat) : x.word (dataKey k q) = s.dcache.word (dataKey k q) :=
    kept.2 _ fun y hy => by
      rw [List.mem_singleton.1 hy]
      exact pair.key k w
  refine ⟨x, frame, kept, fun k hit => ?_, fun _ => ?_, fun frozen => ?_, fun _ k hit => ?_, others, fun goodQ k hit => ?_⟩
  · rw [miss] at hit
    cases hit
  · rw [if_pos enabled]
    exact holds
  · rw [enabled] at frozen
    cases frozen
  · obtain rfl : w = k := Option.some.inj (holds.1.symm.trans hit)
    refine ⟨good, ?_⟩
    rw [badWord, holds.2, parityBad_clean]
  · obtain ⟨goodTag, goodWord⟩ := goodQ k hit
    refine ⟨hitOthers k hit goodTag, word k, ?_, ?_⟩
    · by_cases same : k = w
      · subst same
        rw [badTag, pair.line.2]
        exact good
      · rw [badTag, kept.1 _ fun e => same (tagKey_inj e).1]
        exact goodTag
    · change parityBad (x.word (dataKey k q)) = false
      rw [word]
      exact goodWord

/-! ### Both reads -/

/-- Two reads of a doubleword, the second in the cache that the first leaves, fill no two ways. -/
theorem afterRead_pair {s : State} {a b : Word} (pair : LinePair a b) (quiet : s.dev.ccr1.extractLsb' 11 3 ≠ 0b011#3) :
    ∃ x y w, afterRead s a = { s with dcache := x } ∧ afterRead { s with dcache := x } b = { s with dcache := y } ∧ ReadsWord s a b x w ∧
      ReadsWord { s with dcache := x } b a y w := by
  by_cases still : hitWay .dcache s.dcache a ≠ none ∨ s.dev.ccr.getLsbD 3 = false
  · obtain ⟨l, first⟩ := afterRead_order still
    by_cases still' : hitWay .dcache { s.dcache with lru := l } b ≠ none ∨ s.dev.ccr.getLsbD 3 = false
    · obtain ⟨l', second⟩ := afterRead_order (s := { s with dcache := { s.dcache with lru := l } }) still'
      exact ⟨_, _, 0, first, second, readsWord_order still b 0 l,
        readsWord_order (s := { s with dcache := { s.dcache with lru := l } }) still' a 0 l'⟩
    · obtain ⟨miss, enabled⟩ : hitWay .dcache { s.dcache with lru := l } b = none ∧ s.dev.ccr.getLsbD 3 = true := by simpa using still'
      obtain ⟨w, way, filled, low⟩ := allocate_spec (s := { s with dcache := { s.dcache with lru := l } }) (c := .dcache)
        [(b, s.wordAt b.toNat)] miss
      obtain ⟨y, frame, reads⟩ := readsWord_fill (s := { s with dcache := { s.dcache with lru := l } }) quiet pair.symm way miss enabled low
      refine ⟨_, y, w, first, ?_, readsWord_order still b w l, reads⟩
      simp only [afterRead, miss, enabled, if_true]
      exact filled.trans frame
  · obtain ⟨miss, enabled⟩ : hitWay .dcache s.dcache a = none ∧ s.dev.ccr.getLsbD 3 = true := by simpa using still
    obtain ⟨w, way, filled, low, again⟩ := allocate_again quiet [(a, s.wordAt a.toNat)] [(b, s.wordAt b.toNat)] (c := .dcache) (s := s) miss
      pair.line
    obtain ⟨x, frame, reads⟩ := readsWord_fill quiet pair way miss enabled low
    have first : afterRead s a = { s with dcache := x } := by
      simp only [afterRead, miss, enabled, if_true]
      exact filled.trans frame
    by_cases held : hitWay .dcache x b = none
    · obtain ⟨y, frame', reads'⟩ := readsWord_fill (s := { s with dcache := x }) quiet pair.symm way held enabled
        fun u below => hitWayBelow_eq_none.1 held u (below.trans way)
      refine ⟨x, y, w, first, ?_, reads, reads'⟩
      rw [frame] at again
      simp only [afterRead, held, enabled, if_true]
      exact again.trans frame'
    · obtain ⟨l, second⟩ := afterRead_order (s := { s with dcache := x }) (.inl held)
      exact ⟨x, _, w, first, second, reads, readsWord_order (s := { s with dcache := x }) (.inl held) a w l⟩

/-- Reading one word leaves what a read of the other finds. -/
theorem ReadsWord.finds {s : State} {p q : Word} {x : Cache} {w : Nat} (reads : ReadsWord s p q x w) (good : GoodIfHeld s q) :
    cachedWord { s with dcache := x } q = cachedWord s q ∧ GoodIfHeld { s with dcache := x } q := by
  unfold cachedWord
  cases hit : hitWay .dcache s.dcache q with
  | none =>
    have miss := reads.otherMissed hit
    refine ⟨by simp only [miss]; rfl, fun k found => ?_⟩
    rw [miss] at found
    cases found
  | some k =>
    obtain ⟨found, word, goodTag, goodWord⟩ := reads.otherHeld good k hit
    refine ⟨by simp only [found, word], fun j other => ?_⟩
    obtain rfl : k = j := Option.some.inj (found.symm.trans other)
    exact ⟨goodTag, goodWord⟩

/-- What the data cache `y` has, after both reads, of a word that it was asked for. -/
def WordRead (s : State) (y : Cache) (w : Nat) (p : Word) : Prop :=
  (∀ k, hitWay .dcache s.dcache p = some k → hitWay .dcache y p = some k ∧ y.word (dataKey k p) = s.dcache.word (dataKey k p)) ∧
    (hitWay .dcache s.dcache p = none →
      if s.dev.ccr.getLsbD 3 then Holds { s with dcache := y } .dcache p w (s.wordAt p.toNat) else hitWay .dcache y p = none)

section
variable {s : State} {p q : Word} {x y : Cache} {w : Nat} (reads : ReadsWord s p q x w)
  (reads' : ReadsWord { s with dcache := x } q p y w)
include reads reads'

theorem wordRead_first (good : GoodIfHeld s p) : WordRead s y w p := by
  have still := reads'.otherHeld (reads.good good)
  refine ⟨fun k hit => ?_, fun miss => ?_⟩
  · obtain ⟨hit', word⟩ := reads.held k hit
    obtain ⟨hit'', word', -⟩ := still k hit'
    exact ⟨hit'', word'.trans word⟩
  · have first := reads.missed miss
    split
    · next enabled =>
      rw [if_pos enabled] at first
      obtain ⟨hit', word⟩ := first
      obtain ⟨hit'', word', -⟩ := still w hit'
      exact ⟨hit'', word'.trans word⟩
    · next frozen =>
      rw [if_neg frozen] at first
      exact reads'.otherMissed first

theorem wordRead_second (good : GoodIfHeld s q) : WordRead s y w q := by
  refine ⟨fun k hit => ?_, fun miss => reads'.missed (reads.otherMissed miss)⟩
  obtain ⟨hit', word, -⟩ := reads.otherHeld good k hit
  obtain ⟨hit'', word'⟩ := reads'.held k hit'
  exact ⟨hit'', word'.trans word⟩

end

section
variable {s : State} (inj : NoInjection s) {a : Word} (al : a.toNat % 8 = 0) (cached : CachedRam s a) (cached4 : CachedRam s (a + 4))
  (on : s.dev.ccr.getLsbD 2 = true) {rd : RegNum} (even : rd.toNat % 2 = 0) (good : GoodIfHeld s a) (good4 : GoodIfHeld s (a + 4))
include inj al cached cached4 on even good good4

theorem cachedLoadPair_of :
    CachedLoadPair s (withLoadPair s .normal a fun s2 hi lo => .next (advance (writePair s2 rd hi lo))) rd a := by
  have next := toNat_add_four al
  have pair := linePair_doubleword al
  obtain ⟨x, y, w, first, second, reads, reads4⟩ := afterRead_pair pair cached.2.2.2.2.2.1
  obtain ⟨value4, good4'⟩ := reads.finds good4
  have load1 := cachedReadWord_normal (by omega) cached on good
  have load4 := cachedReadWord_normal (s := { s with dcache := x }) (b := a + 4) (by omega) cached4 on good4'
  have whole (v : Word) (b : Word) : subword v Size.dword.bytes (b.toNat % 4) = v := by
    rw [subword, if_pos (show Size.dword.bytes = 4 from rfl)]
  rw [first] at load1
  rw [second, value4] at load4
  have shape : (withLoadPair s .normal a fun s2 hi lo => .next (advance (writePair s2 rd hi lo))) =
      .next (advance (writePair { s with dcache := y } rd (cachedWord s a) (cachedWord s (a + 4)))) := by
    rw [withLoadPair, withLoad_cached cached on load1, withLoad_cached (s := { s with dcache := x }) cached4 on load4, whole, whole]
  have regs := writePair_spec (u := { s with dcache := y }) inj even (cachedWord s a) (cachedWord s (a + 4))
  obtain ⟨i, frame⟩ : ∃ i, writePair { s with dcache := y } rd (cachedWord s a) (cachedWord s (a + 4)) = { s with dcache := y, ireg := i } := by
    obtain ⟨i, h⟩ := writeR_frame { s with dcache := y } rd (cachedWord s a)
    obtain ⟨j, h'⟩ := writeR_frame { s with dcache := y, ireg := i } (rd + 1) (cachedWord s (a + 4))
    exact ⟨j, by rw [writePair, h, h']⟩
  rw [shape, frame]
  rw [frame] at regs
  refine ⟨_, w, rfl, regs, ⟨fun k hk => ?_, fun k hk => ?_⟩, fun z hz => ?_, fun frozen => ?_, rfl⟩
  · exact (reads4.kept.1 k (by rw [pair.line.2]; exact hk)).trans (reads.kept.1 k hk)
  · refine (reads4.kept.2 k fun z hz => ?_).trans (reads.kept.2 k fun z hz => ?_)
    · rw [List.mem_singleton.1 hz]
      exact hk _ (by simp)
    · rw [List.mem_singleton.1 hz]
      exact hk _ (by simp)
  · obtain rfl | rfl : z = a ∨ z = a + 4 := by simpa using hz
    · exact wordRead_first reads reads4 good
    · exact wordRead_second reads reads4 good4
  · have order := reads.frozen frozen
    have order4 := reads4.frozen frozen
    rw [order] at order4
    exact order4

end

end Sys2Proof.Proofs

/-! PROOFS. The loads of the instruction set with the data cache on, without and with an ASI (20_memory R246, R248, 40 R352). -/

namespace Sys2Proof.Proofs

open Sys2Proof Sys2Proof.Machine

/-! ### The part of the cached word that a load takes -/

theorem lowByte_subword (w : Word) {k : Nat} (hk : k < 4) : lowByte (subword w Size.byte.bytes k) = (byteOf w k).setWidth 32 :=
  (congrArg lowByte (subword_byte w hk)).trans (lowByte_setWidth _)

theorem sextByte_subword (w : Word) {k : Nat} (hk : k < 4) : sextByte (subword w Size.byte.bytes k) = (byteOf w k).signExtend 32 :=
  (congrArg sextByte (subword_byte w hk)).trans (sextByte_setWidth _)

theorem lowHalf_subword (w : Word) {k : Nat} (hk : k = 0 ∨ k = 2) : lowHalf (subword w Size.half.bytes k) = (halfOf w k).setWidth 32 :=
  (congrArg lowHalf (subword_half w hk)).trans (lowHalf_setWidth _)

theorem sextHalf_subword (w : Word) {k : Nat} (hk : k = 0 ∨ k = 2) : sextHalf (subword w Size.half.bytes k) = (halfOf w k).signExtend 32 :=
  (congrArg sextHalf (subword_half w hk)).trans (sextHalf_setWidth _)

theorem half_offset {a : Word} (al : a.toNat % 2 = 0) : a.toNat % 4 = 0 ∨ a.toNat % 4 = 2 := by omega

/-! ### The use of the cache that an ASI names -/

theorem asiSpace_forceAllocate {asi : BitVec 8} (h : asi.extractLsb' 0 4 ∈ ([0, 1, 2, 3] : List (BitVec 4))) :
    asiSpace asi = .memory .forceAllocate := by
  unfold asiSpace
  generalize asi.extractLsb' 0 4 = k at h ⊢
  simp only [List.mem_cons, List.not_mem_nil, or_false] at h
  rcases h with rfl | rfl | rfl | rfl <;> rfl

theorem asiSpace_forceUpdate {asi : BitVec 8} (h : asi.extractLsb' 0 4 ∈ ([4, 7] : List (BitVec 4))) :
    asiSpace asi = .memory .forceUpdate := by
  unfold asiSpace
  generalize asi.extractLsb' 0 4 = k at h ⊢
  simp only [List.mem_cons, List.not_mem_nil, or_false] at h
  rcases h with rfl | rfl <;> rfl

theorem asiSpace_normal {asi : BitVec 8} (h : asi.extractLsb' 0 4 ∈ ([8, 9, 10, 11] : List (BitVec 4))) :
    asiSpace asi = .memory .normal := by
  unfold asiSpace
  generalize asi.extractLsb' 0 4 = k at h ⊢
  simp only [List.mem_cons, List.not_mem_nil, or_false] at h
  rcases h with rfl | rfl | rfl | rfl <;> rfl

/-! ### Loads of a byte, halfword or word -/

section
variable {s : State} (inj : NoInjection s) {a : Word} (cached : CachedRam s a) (cachedBase : CachedRam s (wordBase a))
  (on : s.dev.ccr.getLsbD 2 = true) {rd : RegNum} {sz : Size} {ext f : Word → Word}
  (part : ∀ w, ext (subword w sz.bytes (a.toNat % 4)) = f w)
include inj cached cachedBase on part

theorem alternateLoad_of {asi : BitVec 8} {o : Result}
    (shape : ∀ use, asiSpace asi = .memory use → o = withLoad s use a sz fun s2 v => .next (advance (writeR s2 rd (ext v)))) :
    AlternateLoad s o rd (wordBase a) f asi := by
  have allocates := forcedLoad_of inj cached cachedBase on rd part (use := .forceAllocate) CacheUse.noConfusion
  have updates := forcedLoad_of inj cached cachedBase on rd part (use := .forceUpdate) CacheUse.noConfusion
  refine ⟨fun forced held => ?_, fun forced miss => ?_, fun forced miss => ?_, fun normal => ?_⟩
  · obtain low | low : asi.extractLsb' 0 4 ∈ ([0, 1, 2, 3] : List (BitVec 4)) ∨ asi.extractLsb' 0 4 ∈ ([4, 7] : List (BitVec 4)) := by
      simpa [or_assoc] using forced
    · rw [shape _ (asiSpace_forceAllocate low)]
      exact allocates.1 held
    · rw [shape _ (asiSpace_forceUpdate low)]
      exact updates.1 held
  · rw [shape _ (asiSpace_forceAllocate forced)]
    simpa using allocates.2 miss
  · rw [shape _ (asiSpace_forceUpdate forced)]
    simpa using updates.2 miss
  · rw [shape _ (asiSpace_normal normal)]
    exact cachedLoad_of inj cached cachedBase on rd part

end

section
variable {s : State} (hp : Plain s) (rd rs1 : RegNum)
include hp

theorem loadOp_cached {op2 : RegImm} (cached : CachedRam s (ea s rs1 op2)) (cachedBase : CachedRam s (wordBase (ea s rs1 op2)))
    (on : s.dev.ccr.getLsbD 2 = true) (nw : NoWatch s true false (ea s rs1 op2)) {sz : Size} {ext f : Word → Word}
    (al : aligned (ea s rs1 op2) sz.bytes = true) (part : ∀ w, ext (subword w sz.bytes ((ea s rs1 op2).toNat % 4)) = f w) :
    CachedLoad s (loadOp s rd rs1 op2 sz ext) rd (wordBase (ea s rs1 op2)) f := by
  rw [loadOp_eq hp rd rs1 op2 nw, withAligned_pass al]
  exact cachedLoad_of hp.2.2 cached cachedBase on rd part

theorem loadAltOp_cached (sup : s.psr.s = true) {rs2 : RegNum} (cached : CachedRam s (s.r rs1 + s.r rs2))
    (cachedBase : CachedRam s (wordBase (s.r rs1 + s.r rs2))) (on : s.dev.ccr.getLsbD 2 = true)
    (nw : NoWatch s true false (s.r rs1 + s.r rs2)) (asi : BitVec 8) {sz : Size} {ext f : Word → Word}
    (al : aligned (s.r rs1 + s.r rs2) sz.bytes = true) (part : ∀ w, ext (subword w sz.bytes ((s.r rs1 + s.r rs2).toNat % 4)) = f w) :
    AlternateLoad s (loadAltOp s rd rs1 (.reg asi rs2) sz ext) rd (wordBase (s.r rs1 + s.r rs2)) f asi :=
  alternateLoad_of hp.2.2 cached cachedBase on part fun _ space => by
    rw [loadAltOp_memory hp sup rd rs1 space nw, withAligned_pass al]

/-- The load clauses of O52 without an ASI. -/
theorem loads_cached {op2 : RegImm} (cached : CachedRam s (ea s rs1 op2)) (cachedBase : CachedRam s (wordBase (ea s rs1 op2)))
    (on : s.dev.ccr.getLsbD 2 = true) (nw : NoWatch s true false (ea s rs1 op2)) :
    let a := ea s rs1 op2
    let b := wordBase a
    let k := a.toNat % 4
    CachedLoad s (exec (.ldub rd rs1 op2) s) rd b (fun x => (byteOf x k).setWidth 32) ∧
      CachedLoad s (exec (.ldsb rd rs1 op2) s) rd b (fun x => (byteOf x k).signExtend 32) ∧
      (a.toNat % 2 = 0 → CachedLoad s (exec (.lduh rd rs1 op2) s) rd b (fun x => (halfOf x k).setWidth 32) ∧
        CachedLoad s (exec (.ldsh rd rs1 op2) s) rd b (fun x => (halfOf x k).signExtend 32)) ∧
      (k = 0 → CachedLoad s (exec (.ld rd rs1 op2) s) rd b id) ∧
      (rd.toNat % 2 = 0 ∧ a.toNat % 8 = 0 ∧ CachedRam s (a + 4) → GoodIfHeld s a → GoodIfHeld s (a + 4) →
        CachedLoadPair s (exec (.ldd rd rs1 op2) s) rd a) := by
  intro a b k
  have low : k < 4 := Nat.mod_lt _ (by omega)
  have load {sz : Size} {ext f : Word → Word} (al : aligned a sz.bytes = true) (part : ∀ w, ext (subword w sz.bytes k) = f w) :
      CachedLoad s (loadOp s rd rs1 op2 sz ext) rd b f := loadOp_cached hp rd rs1 cached cachedBase on nw al part
  refine ⟨load (sz := .byte) (aligned_one a) fun w => lowByte_subword w low, load (sz := .byte) (aligned_one a) fun w => sextByte_subword w low,
    fun al => ⟨?_, ?_⟩, fun al => ?_, fun ⟨even, al, cached4⟩ good good4 => ?_⟩
  · exact load (sz := .half) ((aligned_two_iff a).2 al) fun w => lowHalf_subword w (half_offset al)
  · exact load (sz := .half) ((aligned_two_iff a).2 al) fun w => sextHalf_subword w (half_offset al)
  · exact load (sz := .word) ((aligned_four_iff a).2 al) fun w => rfl
  · change CachedLoadPair s (execLdd rd rs1 op2 s) rd a
    rw [execLdd_eq hp rd rs1 op2 even nw, withAligned_pass ((aligned_eight_iff a).2 al)]
    exact cachedLoadPair_of hp.2.2 al cached cached4 on even good good4

/-- The load clauses of O52 with an ASI. -/
theorem alternateLoads_cached (sup : s.psr.s = true) {rs2 : RegNum} (cached : CachedRam s (s.r rs1 + s.r rs2))
    (cachedBase : CachedRam s (wordBase (s.r rs1 + s.r rs2))) (on : s.dev.ccr.getLsbD 2 = true)
    (nw : NoWatch s true false (s.r rs1 + s.r rs2)) (asi : BitVec 8) :
    let a := s.r rs1 + s.r rs2
    let b := wordBase a
    let k := a.toNat % 4
    let x : AltArg := .reg asi rs2
    AlternateLoad s (exec (.lduba rd rs1 x) s) rd b (fun x => (byteOf x k).setWidth 32) asi ∧
      AlternateLoad s (exec (.ldsba rd rs1 x) s) rd b (fun x => (byteOf x k).signExtend 32) asi ∧
      (a.toNat % 2 = 0 → AlternateLoad s (exec (.lduha rd rs1 x) s) rd b (fun x => (halfOf x k).setWidth 32) asi ∧
        AlternateLoad s (exec (.ldsha rd rs1 x) s) rd b (fun x => (halfOf x k).signExtend 32) asi) ∧
      (k = 0 → AlternateLoad s (exec (.lda rd rs1 x) s) rd b id asi) ∧
      (rd.toNat % 2 = 0 ∧ a.toNat % 8 = 0 ∧ CachedRam s (a + 4) → asi.extractLsb' 0 4 ∈ ([8, 9, 10, 11] : List (BitVec 4)) →
        GoodIfHeld s a → GoodIfHeld s (a + 4) → CachedLoadPair s (exec (.ldda rd rs1 x) s) rd a) := by
  intro a b k x
  have low : k < 4 := Nat.mod_lt _ (by omega)
  have load {sz : Size} {ext f : Word → Word} (al : aligned a sz.bytes = true) (part : ∀ w, ext (subword w sz.bytes k) = f w) :
      AlternateLoad s (loadAltOp s rd rs1 x sz ext) rd b f asi := loadAltOp_cached hp rd rs1 sup cached cachedBase on nw asi al part
  refine ⟨load (sz := .byte) (aligned_one a) fun w => lowByte_subword w low, load (sz := .byte) (aligned_one a) fun w => sextByte_subword w low,
    fun al => ⟨?_, ?_⟩, fun al => ?_, fun ⟨even, al, cached4⟩ normal good good4 => ?_⟩
  · exact load (sz := .half) ((aligned_two_iff a).2 al) fun w => lowHalf_subword w (half_offset al)
  · exact load (sz := .half) ((aligned_two_iff a).2 al) fun w => sextHalf_subword w (half_offset al)
  · exact load (sz := .word) ((aligned_four_iff a).2 al) fun w => rfl
  · change CachedLoadPair s (execLdda rd rs1 x s) rd a
    rw [execLdda_memory hp sup rd rs1 (asiSpace_normal normal) even nw, withAligned_pass ((aligned_eight_iff a).2 al)]
    exact cachedLoadPair_of hp.2.2 al cached cached4 on even good good4

end

end Sys2Proof.Proofs

/-! PROOFS. The stores of the instruction set with the data cache on: memory, then the copy held (20_memory R206, R247). -/

namespace Sys2Proof.Proofs

open Sys2Proof Sys2Proof.Machine

/-! ### Stores of a byte, halfword or word -/

section
variable {s : State} {a : Word} (cached : CachedRam s a) (on : s.dev.ccr.getLsbD 2 = true) (free : writeProtected s.dev a = false)
  (valid : ewbOn s.dev = false) {sz : Size} (lane : LaneOk sz.bytes (a.toNat % 4)) (v : Word)
include cached on free valid lane

theorem dataWrite_cachedStored :
    ∃ t, dataWrite s a sz v = .ok () (updateCached t .dcache (wordBase a) sz.bytes (a.toNat % 4) v) ∧ Stored s t a (storeBytes sz.bytes v) := by
  obtain ⟨t, written, bytes, frame, kept, fresh⟩ := dataWrite_cached cached on free valid lane v
  exact ⟨t, written, stored_of_transfer lane bytes frame kept fresh⟩

/-- A write with the data cache on changes memory and the cache. -/
theorem dataWrite_updates :
    ∃ m f x, dataWrite s a sz v = .ok () { s with mem := m, memFlip := f, dcache := x } ∧
      Stored s { s with mem := m, memFlip := f } a (storeBytes sz.bytes v) ∧
      UpdatesCopy s { s with mem := m, memFlip := f, dcache := x } (wordBase a) (a.toNat % 4) (storeBytes sz.bytes v) := by
  obtain ⟨t, written, stored⟩ := dataWrite_cachedStored cached on free valid lane v
  have stored' := stored
  obtain ⟨-, -, m, f, rfl⟩ := stored'
  obtain ⟨updates, frame⟩ := updateCached_updatesCopy (s := s) (t := { s with mem := m, memFlip := f }) (b := wordBase a) lane v
    cached.2.2.2.2.2.1 rfl
  rw [frame] at updates written
  exact ⟨m, f, _, written, stored, updates⟩

theorem cachedStore_of (al : aligned a sz.bytes = true) :
    CachedStore s (withAligned s a sz.bytes (withStore s a sz v fun s3 => .next (advance s3))) a (storeBytes sz.bytes v) := by
  obtain ⟨m, f, x, written, ⟨bytes, flips, -⟩, updates⟩ := dataWrite_updates cached on free valid lane v
  rw [withAligned_pass al, withStore, written]
  exact ⟨_, rfl, bytes, flips, updates, rfl⟩

end

section
variable {s : State} {a : Word} (cached : CachedRam s a) (on : s.dev.ccr.getLsbD 2 = true) (free : writeProtected s.dev a = false)
  (valid : ewbOn s.dev = false)
include cached on free valid

theorem cachedStore_byte (v : Word) :
    CachedStore s (withAligned s a Size.byte.bytes (withStore s a .byte (lowByte v) fun s3 => .next (advance s3))) a [v.extractLsb' 0 8] := by
  rw [← storeBytes_byte]
  exact cachedStore_of cached on free valid (sz := .byte) (.inl ⟨rfl, Nat.mod_lt _ (by omega)⟩) _ (aligned_one a)

theorem cachedStore_half (al : a.toNat % 2 = 0) (v : Word) :
    CachedStore s (withAligned s a Size.half.bytes (withStore s a .half (lowHalf v) fun s3 => .next (advance s3))) a
      [v.extractLsb' 8 8, v.extractLsb' 0 8] := by
  rw [← storeBytes_half]
  exact cachedStore_of cached on free valid (sz := .half) (.inr (.inl ⟨rfl, by omega⟩)) _ ((aligned_two_iff a).2 al)

theorem cachedStore_word (al : a.toNat % 4 = 0) (v : Word) :
    CachedStore s (withAligned s a Size.word.bytes (withStore s a .word (id v) fun s3 => .next (advance s3))) a (bytesOfWord v) :=
  cachedStore_of cached on free valid (sz := .word) (.inr (.inr ⟨rfl, al⟩)) v ((aligned_four_iff a).2 al)

end

/-! ### Stores of a doubleword -/

/-- The cache `y` is `x` after a store of the word `v` at `p`: the copy held, if any, takes it. -/
structure UpdatesWord (x : Cache) (p v : Word) (y : Cache) : Prop where
  tags : ∀ i, y.tag i = x.tag i
  hits : ∀ q, hitWay .dcache y q = hitWay .dcache x q
  missed : hitWay .dcache x p = none → y = x
  held : ∀ w, hitWay .dcache x p = some w → y.word (dataKey w p) = CacheWord.clean v
  words : ∀ i, (∀ w, hitWay .dcache x p = some w → i ≠ dataKey w p) → y.word i = x.word i

theorem updateCached_updatesWord {s : State} (quiet : s.dev.ccr1.extractLsb' 11 3 ≠ 0b011#3) (p v : Word) :
    ∃ y, updateCached s .dcache p 4 0 v = { s with dcache := y } ∧ UpdatesWord s.dcache p v y := by
  cases hit : hitWay .dcache s.dcache p with
  | none =>
    refine ⟨s.dcache, ?_, fun _ => rfl, fun _ => rfl, fun _ => rfl, fun w held => ?_, fun _ _ => rfl⟩
    · simp only [updateCached, State.getCache, hit]
    · rw [hit] at held
      cases held
  | some w =>
    obtain ⟨frame, kept, tags, hits, -⟩ := updateCached_part quiet (c := .dcache) (s := s) hit 4 0 v
    obtain ⟨-, -, ⟨-, word⟩, -⟩ := updateCached_spec quiet (c := .dcache) (s := s) hit v
    refine ⟨_, frame, tags, hits, fun miss => ?_, fun k held => ?_, fun i apart => kept.2 i fun q hq => ?_⟩
    · rw [hit] at miss
      cases miss
    · obtain rfl : w = k := Option.some.inj (hit.symm.trans held)
      exact word
    · rw [List.mem_singleton.1 hq]
      exact apart w hit

/-- Two stores of a doubleword's words, seen in the cache. -/
theorem updatesWord_pair {x y z : Cache} {p q u v : Word} (first : UpdatesWord x p u y) (second : UpdatesWord y q v z) (pair : LinePair p q) :
    (hitWay .dcache x p = none → hitWay .dcache x q = none → z = x) ∧
      (∀ r, hitWay .dcache z r = hitWay .dcache x r) ∧
      (∀ w, hitWay .dcache x p = some w → z.word (dataKey w p) = CacheWord.clean u) ∧
      (∀ w, hitWay .dcache x q = some w → z.word (dataKey w q) = CacheWord.clean v) ∧
      (∀ i, z.tag i = x.tag i) ∧
      ∀ i, (∀ r ∈ [p, q], ∀ w, hitWay .dcache x r = some w → i ≠ dataKey w r) → z.word i = x.word i := by
  refine ⟨fun missed missed' => ?_, fun r => (second.hits r).trans (first.hits r), fun w held => ?_, fun w held => ?_,
    fun i => (second.tags i).trans (first.tags i), fun i apart => ?_⟩
  · exact (second.missed ((first.hits q).trans missed')).trans (first.missed missed)
  · exact (second.words _ fun k _ => (pair.key k w).symm).trans (first.held w held)
  · exact second.held w ((first.hits q).trans held)
  · refine (second.words i fun w held => ?_).trans (first.words i fun w held => apart p (by simp) w held)
    exact apart q (by simp) w ((first.hits q).symm.trans held)

/-- A place of cached RAM stays so when a store elsewhere has left it alone. -/
theorem Stored.cachedRam {s t : State} {a b : Word} {l : List Byte} (h : Stored s t a l) (cached : CachedRam s b)
    (apart : a.toNat + l.length ≤ b.toNat) (alb : b.toNat % 4 = 0) (pos : 0 < l.length) : CachedRam t b := by
  obtain ⟨-, flips, m, f, rfl⟩ := h
  obtain ⟨area, bank, bus, erb, free, rest⟩ := cached
  refine ⟨area, bank, bus, erb, ?_, rest⟩
  rw [flips.1 _ (.inr _)]
  · exact free
  · rw [wordBase_of_aligned alb]
    omega

section
variable {s : State} {a : Word} (cached : CachedRam s a) (on : s.dev.ccr.getLsbD 2 = true) (free : writeProtected s.dev a = false)
  (valid : ewbOn s.dev = false)
include cached on free valid

/-- One word of a doubleword store. -/
theorem dataWrite_dword (al : a.toNat % 4 = 0) (v : Word) :
    ∃ m f x, dataWrite s a .dword v = .ok () { s with mem := m, memFlip := f, dcache := x } ∧
      Stored s { s with mem := m, memFlip := f } a (bytesOfWord v) ∧ UpdatesWord s.dcache a v x := by
  obtain ⟨t, written, stored⟩ := dataWrite_cachedStored cached on free valid (sz := .dword) (.inr (.inr ⟨rfl, al⟩)) v
  have stored' := stored
  obtain ⟨-, -, m, f, rfl⟩ := stored'
  obtain ⟨x, frame, updates⟩ := updateCached_updatesWord (s := { s with mem := m, memFlip := f }) cached.2.2.2.2.2.1 a v
  rw [wordBase_of_aligned al, al] at written
  exact ⟨m, f, x, written.trans (congrArg _ frame), stored, updates⟩

theorem cachedStorePair_of (al : a.toNat % 8 = 0) (cached4 : CachedRam s (a + 4)) (free4 : writeProtected s.dev (a + 4) = false) (hi lo : Word) :
    CachedStorePair s (withAligned s a 8 (withStorePair s a hi lo fun s3 => .next (advance s3))) a hi lo := by
  have next := toNat_add_four al
  obtain ⟨m, f, x, written, stored, first⟩ := dataWrite_dword cached on free valid (by omega) hi
  have cached4' : CachedRam { s with mem := m, memFlip := f, dcache := x } (a + 4) :=
    cachedRam_withDcache (stored.cachedRam cached4 (by rw [next]; exact le_refl _) (by omega) (show 0 < 4 by omega)) x
  obtain ⟨m', f', y, written', stored', second⟩ := dataWrite_dword cached4' on free4 valid (by omega) lo
  have both : Stored s { s with mem := m', memFlip := f' } a (bytesOfWord hi ++ bytesOfWord lo) :=
    stored.append (u := { s with mem := m', memFlip := f' }) ⟨stored'.1, stored'.2.1, m', f', rfl⟩ rfl rfl al
  obtain ⟨missed, hits, held, held', tags, words⟩ := updatesWord_pair first second (linePair_doubleword al)
  rw [withAligned_pass ((aligned_eight_iff a).2 al), withStorePair, withStore, written]
  simp only
  rw [withStore, written']
  refine ⟨_, rfl, both.1, both.2.1, missed, fun p hp => ?_, tags, words, rfl⟩
  obtain rfl | rfl : p = (a, hi) ∨ p = (a + 4, lo) := by simpa using hp
  · exact ⟨(hits a).trans, fun w hit => ⟨(hits a).trans hit, held w hit⟩⟩
  · exact ⟨(hits (a + 4)).trans, fun w hit => ⟨(hits (a + 4)).trans hit, held' w hit⟩⟩

end

/-! ### The instructions -/

section
variable {s : State} (hp : Plain s) (rd rs1 : RegNum)
include hp

/-- The store clauses of O52 without an ASI. -/
theorem stores_cached {op2 : RegImm} (cached : CachedRam s (ea s rs1 op2)) (on : s.dev.ccr.getLsbD 2 = true)
    (free : writeProtected s.dev (ea s rs1 op2) = false) (valid : ewbOn s.dev = false) (nw : NoWatch s false true (ea s rs1 op2)) :
    let a := ea s rs1 op2
    let v := s.r rd
    CachedStore s (exec (.stb rd rs1 op2) s) a [v.extractLsb' 0 8] ∧
      (a.toNat % 2 = 0 → CachedStore s (exec (.sth rd rs1 op2) s) a [v.extractLsb' 8 8, v.extractLsb' 0 8]) ∧
      (a.toNat % 4 = 0 → CachedStore s (exec (.st rd rs1 op2) s) a (bytesOfWord v)) ∧
      (rd.toNat % 2 = 0 ∧ a.toNat % 8 = 0 ∧ CachedRam s (a + 4) → writeProtected s.dev (a + 4) = false →
        CachedStorePair s (exec (.std rd rs1 op2) s) a v (s.r (rd + 1))) := by
  intro a v
  refine ⟨?_, fun al => ?_, fun al => ?_, fun ⟨even, al, cached4⟩ free4 => ?_⟩
  · change CachedStore s (storeOp s rd rs1 op2 .byte lowByte) a _
    rw [storeOp_eq hp rd rs1 op2 nw]
    exact cachedStore_byte cached on free valid v
  · change CachedStore s (storeOp s rd rs1 op2 .half lowHalf) a _
    rw [storeOp_eq hp rd rs1 op2 nw]
    exact cachedStore_half cached on free valid al v
  · change CachedStore s (storeOp s rd rs1 op2 .word id) a _
    rw [storeOp_eq hp rd rs1 op2 nw]
    exact cachedStore_word cached on free valid al v
  · change CachedStorePair s (execStd rd rs1 op2 s) a _ _
    rw [execStd_eq hp rd rs1 op2 even nw]
    exact cachedStorePair_of cached on free valid al cached4 free4 _ _

/-- The store clauses of O52 with an ASI. -/
theorem alternateStores_cached (sup : s.psr.s = true) {asi : BitVec 8} {rs2 : RegNum} (cached : CachedRam s (s.r rs1 + s.r rs2))
    (on : s.dev.ccr.getLsbD 2 = true) (free : writeProtected s.dev (s.r rs1 + s.r rs2) = false) (valid : ewbOn s.dev = false)
    (nw : NoWatch s false true (s.r rs1 + s.r rs2))
    (space : asi.extractLsb' 0 4 ∈ ([0, 1, 2, 3, 4, 7, 8, 9, 10, 11] : List (BitVec 4))) :
    let a := s.r rs1 + s.r rs2
    let v := s.r rd
    let x : AltArg := .reg asi rs2
    CachedStore s (exec (.stba rd rs1 x) s) a [v.extractLsb' 0 8] ∧
      (a.toNat % 2 = 0 → CachedStore s (exec (.stha rd rs1 x) s) a [v.extractLsb' 8 8, v.extractLsb' 0 8]) ∧
      (a.toNat % 4 = 0 → CachedStore s (exec (.sta rd rs1 x) s) a (bytesOfWord v)) ∧
      (rd.toNat % 2 = 0 ∧ a.toNat % 8 = 0 ∧ CachedRam s (a + 4) → writeProtected s.dev (a + 4) = false →
        CachedStorePair s (exec (.stda rd rs1 x) s) a v (s.r (rd + 1))) := by
  intro a v x
  obtain ⟨use, mem⟩ := asiSpace_memory space
  refine ⟨?_, fun al => ?_, fun al => ?_, fun ⟨even, al, cached4⟩ free4 => ?_⟩
  · change CachedStore s (storeAltOp s rd rs1 x .byte lowByte) a _
    rw [storeAltOp_memory hp sup rd rs1 mem nw]
    exact cachedStore_byte cached on free valid v
  · change CachedStore s (storeAltOp s rd rs1 x .half lowHalf) a _
    rw [storeAltOp_memory hp sup rd rs1 mem nw]
    exact cachedStore_half cached on free valid al v
  · change CachedStore s (storeAltOp s rd rs1 x .word id) a _
    rw [storeAltOp_memory hp sup rd rs1 mem nw]
    exact cachedStore_word cached on free valid al v
  · change CachedStorePair s (execStda rd rs1 x s) a _ _
    rw [execStda_memory hp sup rd rs1 mem even nw]
    exact cachedStorePair_of cached on free valid al cached4 free4 _ _

end

end Sys2Proof.Proofs

/-! PROOFS. The atomics with the data cache on (20_memory R246, R247, 40 R373, R375), and a snooped write (20_memory R252). -/

namespace Sys2Proof.Proofs

open Sys2Proof Sys2Proof.Machine

/-! ### The read of an atomic -/

/-- A read without wrong parity hits, fills a way, or leaves a frozen cache. -/
theorem afterRead_cases {s : State} {b : Word} (quiet : s.dev.ccr1.extractLsb' 11 3 ≠ 0b011#3) :
    ∃ x w, afterRead s b = { s with dcache := x } ∧
      ((hitWay .dcache s.dcache b = some w ∧ ∃ l, x = { s.dcache with lru := l }) ∨
        (hitWay .dcache s.dcache b = none ∧ s.dev.ccr.getLsbD 3 = true ∧ Holds { s with dcache := x } .dcache b w (s.wordAt b.toNat) ∧
          OtherLinesKept s { s with dcache := x } .dcache b w [b]) ∨
        (hitWay .dcache s.dcache b = none ∧ s.dev.ccr.getLsbD 3 = false ∧ x = s.dcache)) := by
  unfold afterRead
  cases hit : hitWay .dcache s.dcache b with
  | some w => exact ⟨s.dcache.touch (cacheSet .dcache b) w, w, rfl, .inl ⟨rfl, _, rfl⟩⟩
  | none =>
    cases enabled : s.dev.ccr.getLsbD 3 with
    | false => exact ⟨s.dcache, 0, rfl, .inr (.inr ⟨rfl, rfl, rfl⟩)⟩
    | true =>
      obtain ⟨w, way, filled, low⟩ := allocate_spec [(b, s.wordAt b.toNat)] (c := .dcache) (s := s) hit
      obtain ⟨x, frame, holds, -, kept, -⟩ := fillWay_word quiet way low (s.wordAt b.toNat)
      exact ⟨x, w, filled.trans frame, .inr (.inl ⟨rfl, rfl, holds, kept⟩)⟩

/-! ### The word stored to, in memory and in the cache -/

theorem word_ext_bytes {v w : Word} (h : ∀ j < 4, byteOf v j = byteOf w j) : v = w := by
  have lane (i : Nat) (hi : i < 32) (j : Nat) (hj : j < 4) (at' : 8 * (3 - j) ≤ i ∧ i < 8 * (3 - j) + 8) : v[i] = w[i] := by
    have := congrArg (·.getLsbD (i - 8 * (3 - j))) (h j hj)
    simp only [byteOf, BitVec.getLsbD_extractLsb', show i - 8 * (3 - j) < 8 by omega, decide_true, Bool.true_and,
      show 8 * (3 - j) + (i - 8 * (3 - j)) = i by omega] at this
    exact this
  ext i hi
  exact lane i hi (3 - i / 8) (by omega) (by omega)

/-- The bytes of the word at `wordBase a` after a store at `a` within it. -/
theorem byteOf_stored {s t : State} {a : Word} {l : List Byte} (stores : StoresBytes s t a l) {j : Nat} (hj : j < 4) :
    byteOf (t.wordAt (wordBase a).toNat) j =
      if h : a.toNat % 4 ≤ j ∧ j < a.toNat % 4 + l.length then l[j - a.toNat % 4] else byteOf (s.wordAt (wordBase a).toNat) j := by
  have base := wordBase_toNat a
  have low := Nat.mod_le a.toNat 4
  obtain ⟨inside, outside⟩ := stores
  rw [byteOf, byteOf, wordAt_byte t _ _ hj, wordAt_byte s _ _ hj, base]
  split
  · next h =>
    rw [← inside (j - a.toNat % 4) (by omega)]
    congr 1
    omega
  · next h => exact outside _ (by omega)

/-- Where the cache held what memory did, it does so after a store. -/
theorem updatesCopy_memory {s t : State} {a : Word} {l : List Byte} (stores : StoresBytes s t a l)
    (updates : UpdatesCopy s t (wordBase a) (a.toNat % 4) l) {w : Nat} (holds : Holds s .dcache (wordBase a) w (s.wordAt (wordBase a).toNat)) :
    Holds t .dcache (wordBase a) w (t.wordAt (wordBase a).toNat) := by
  obtain ⟨hit, word⟩ := holds
  obtain ⟨hit', -, -, -, bytes, clean⟩ := updates.2 w hit
  have old : (s.dcache.word (dataKey w (wordBase a))) = CacheWord.clean (s.wordAt (wordBase a).toNat) := word
  refine ⟨hit', (clean (.inr (by rw [old]; rfl))).trans (congrArg _ (word_ext_bytes fun j hj => ?_))⟩
  rw [bytes j hj, byteOf_stored stores hj, old]
  rfl

/-! ### The atomics -/

section
variable {s : State} (inj : NoInjection s) {a : Word} (cached : CachedRam s a) (cachedBase : CachedRam s (wordBase a))
  (on : s.dev.ccr.getLsbD 2 = true) (free : writeProtected s.dev a = false) (valid : ewbOn s.dev = false) (good : GoodIfHeld s (wordBase a))
include inj cached cachedBase on free valid good

theorem cachedAtomic_of (rd : RegNum) {sz : Size} (lane : LaneOk sz.bytes (a.toNat % 4)) {ext : Word → Word} {r : Word}
    (part : ext (subword (cachedWord s (wordBase a)) sz.bytes (a.toNat % 4)) = r) (v : Word) :
    CachedAtomic s (withLoad s .normal a sz fun s2 w => withStore s2 a sz v fun s3 => .next (advance (writeR s3 rd (ext w)))) rd a r
      (storeBytes sz.bytes v) := by
  obtain ⟨x, w, after, found⟩ := afterRead_cases (b := wordBase a) cached.2.2.2.2.2.1
  have read := (cachedReadWord_base s .normal a).trans (cachedReadWord_normal (wordBase_mod a) cachedBase on good)
  rw [after] at read
  obtain ⟨m, f, y, written, ⟨bytes, flips, -⟩, updates⟩ :=
    dataWrite_updates (s := { s with dcache := x }) (cachedRam_withDcache cached x) on free valid lane v
  rw [withLoad_cached cached on read, part, withStore, written]
  let u : State := { s with mem := m, memFlip := f, dcache := y }
  have regs := writeR_spec (s := u) inj rd r
  obtain ⟨i, frame⟩ := writeR_frame u rd r
  rw [frame] at regs
  simp only
  rw [show writeR _ rd r = _ from frame]
  refine ⟨_, w, rfl, regs, bytes, flips, ?_⟩
  rcases found with ⟨hit, order, rfl⟩ | ⟨miss, enabled, holds, kept⟩ | ⟨miss, frozen, rfl⟩
  · have hit' : hitWay .dcache { s.dcache with lru := order } (wordBase a) = some w := (hitWay_tags rfl _).trans hit
    obtain ⟨hit'', kept, -, -, parts, -⟩ := updates.2 w hit'
    refine ⟨kept, fun k held => ?_, fun miss => ?_, rfl⟩
    · obtain rfl : w = k := Option.some.inj (hit.symm.trans held)
      exact ⟨rfl, hit'', parts⟩
    · rw [hit] at miss
      cases miss
  · obtain ⟨-, kept', -⟩ := updates.2 w holds.1
    refine ⟨⟨fun k hk => (kept'.1 k hk).trans (kept.1 k hk), fun k hk => (kept'.2 k hk).trans (kept.2 k hk)⟩, fun k held => ?_,
      fun _ => ?_, rfl⟩
    · rw [miss] at held
      cases held
    · rw [if_pos enabled]
      have held : Holds u .dcache (wordBase a) w (u.wordAt (wordBase a).toNat) :=
        updatesCopy_memory (s := { s with dcache := x }) (t := u) bytes updates holds
      exact held
  · have same : y = s.dcache := updates.1 miss
    refine ⟨⟨fun k _ => congrArg (·.tag k) same, fun k _ => congrArg (·.word k) same⟩, fun k held => ?_, fun _ => ?_, rfl⟩
    · rw [miss] at held
      cases held
    · rw [frozen, if_neg Bool.false_ne_true]
      exact same

theorem cachedAtomic_byte (rd : RegNum) :
    CachedAtomic s (withLoad s .normal a .byte fun s2 w => withStore s2 a .byte 0xFF#32 fun s3 => .next (advance (writeR s3 rd (lowByte w))))
      rd a ((byteOf (cachedWord s (wordBase a)) (a.toNat % 4)).setWidth 32) [0xFF] :=
  cachedAtomic_of inj cached cachedBase on free valid good rd (sz := .byte) (.inl ⟨rfl, Nat.mod_lt _ (by omega)⟩)
    (lowByte_subword _ (Nat.mod_lt _ (by omega))) 0xFF#32

theorem cachedAtomic_word (rd : RegNum) (al : a.toNat % 4 = 0) (v : Word) :
    CachedAtomic s (withAligned s a 4 (withLoad s .normal a .word fun s2 w => withStore s2 a .word v fun s3 => .next (advance (writeR s3 rd w))))
      rd a (cachedWord s (wordBase a)) (bytesOfWord v) := by
  rw [withAligned_pass ((aligned_four_iff a).2 al)]
  exact cachedAtomic_of inj cached cachedBase on free valid good rd (sz := .word) (ext := id) (.inr (.inr ⟨rfl, al⟩)) rfl v

end

section
variable {s : State} (hp : Plain s) (rd rs1 : RegNum)
include hp

/-- The atomic clauses of O52 without an ASI. -/
theorem atomics_cached {op2 : RegImm} (cached : CachedRam s (ea s rs1 op2)) (cachedBase : CachedRam s (wordBase (ea s rs1 op2)))
    (on : s.dev.ccr.getLsbD 2 = true) (free : writeProtected s.dev (ea s rs1 op2) = false) (valid : ewbOn s.dev = false)
    (nw : NoWatch s true true (ea s rs1 op2)) (good : GoodIfHeld s (wordBase (ea s rs1 op2))) :
    let a := ea s rs1 op2
    let b := wordBase a
    CachedAtomic s (exec (.ldstub rd rs1 op2) s) rd a ((byteOf (cachedWord s b) (a.toNat % 4)).setWidth 32) [0xFF] ∧
      (a.toNat % 4 = 0 → CachedAtomic s (exec (.swap rd rs1 op2) s) rd a (cachedWord s b) (bytesOfWord (s.r rd))) := by
  intro a b
  refine ⟨?_, fun al => ?_⟩
  · change CachedAtomic s (execLdstub rd rs1 op2 s) rd a _ _
    rw [execLdstub_eq hp rd rs1 op2 nw]
    exact cachedAtomic_byte hp.2.2 cached cachedBase on free valid good rd
  · change CachedAtomic s (execSwap rd rs1 op2 s) rd a _ _
    rw [execSwap_eq hp rd rs1 op2 nw]
    exact cachedAtomic_word hp.2.2 cached cachedBase on free valid good rd al _

/-- The atomic clauses of O52 with an ASI. -/
theorem alternateAtomics_cached (sup : s.psr.s = true) {asi : BitVec 8} {rs2 : RegNum} (cached : CachedRam s (s.r rs1 + s.r rs2))
    (cachedBase : CachedRam s (wordBase (s.r rs1 + s.r rs2))) (on : s.dev.ccr.getLsbD 2 = true)
    (free : writeProtected s.dev (s.r rs1 + s.r rs2) = false) (valid : ewbOn s.dev = false)
    (nw : NoWatch s true true (s.r rs1 + s.r rs2)) (good : GoodIfHeld s (wordBase (s.r rs1 + s.r rs2)))
    (normal : asi.extractLsb' 0 4 ∈ ([8, 9, 10, 11] : List (BitVec 4))) :
    let a := s.r rs1 + s.r rs2
    let b := wordBase a
    let x : AltArg := .reg asi rs2
    CachedAtomic s (exec (.ldstuba rd rs1 x) s) rd a ((byteOf (cachedWord s b) (a.toNat % 4)).setWidth 32) [0xFF] ∧
      (a.toNat % 4 = 0 → CachedAtomic s (exec (.swapa rd rs1 x) s) rd a (cachedWord s b) (bytesOfWord (s.r rd))) := by
  intro a b x
  have space := asiSpace_normal normal
  refine ⟨?_, fun al => ?_⟩
  · change CachedAtomic s (execLdstuba rd rs1 x s) rd a _ _
    rw [execLdstuba_memory hp sup rd rs1 space nw]
    exact cachedAtomic_byte hp.2.2 cached cachedBase on free valid good rd
  · change CachedAtomic s (execSwapa rd rs1 x s) rd a _ _
    rw [execSwapa_memory hp sup rd rs1 space nw]
    exact cachedAtomic_word hp.2.2 cached cachedBase on free valid good rd al _

end

/-! ### A write of another master -/

/-- The line of a data address. -/
theorem cacheSet_line {a x : Word} (line : x >>> 4 = a >>> 4) : cacheSet .dcache x = cacheSet .dcache a := by
  have field (w : Word) : w.extractLsb' 4 9 = (w >>> 4).extractLsb' 0 9 := by
    ext i hi
    simp
  simp only [cacheSet, field, line]

/-- A line whose valid bits are cleared holds no word. -/
theorem holdsWord_invalidated {c : Cache} {x : Word} {w : Nat} {v : Word}
    (tag : c.tag (tagKey .dcache w (cacheSet .dcache x)) = CacheWord.clean (v &&& 0xFFFFF0FF#32)) : holdsWord .dcache c x w = false := by
  have low : 8 ≤ validBit .dcache x ∧ validBit .dcache x < 12 := by
    simp only [validBit]
    omega
  have clear : (0xFFFFF0FF#32).getLsbD (validBit .dcache x) = false := by
    generalize validBit .dcache x = n at low
    obtain ⟨h1, h2⟩ := low
    interval_cases n <;> rfl
  simp only [holdsWord, tag, CacheWord.clean, bit, BitVec.getLsbD_and, clear, Bool.and_false]

/-- A write of another master stores its word and invalidates the line of the data cache. -/
theorem busWrite_snooped {s : State} {a d : Word} {w : Nat} (al : a.toNat % 4 = 0) (cached : CachedRam s a)
    (on : s.dev.ccr.getLsbD 2 = true) (snoops : s.dev.ccr.getLsbD 23 = true) (free : writeProtected s.dev a = false)
    (valid : ewbOn s.dev = false) (hit : hitWay .dcache s.dcache a = some w) :
    ∃ t, busWrite s .pci a .word d = .ok () t ∧ StoresBytes s t a (bytesOfWord d) ∧ OtherLinesKept s t .dcache a w [] ∧
      (∀ x : Word, x >>> 4 = a >>> 4 → holdsWord .dcache t.dcache x w = false) ∧
      t = { s with mem := t.mem, memFlip := t.memFlip, dcache := t.dcache } := by
  obtain ⟨t, written, bytes, frame, -⟩ := areaWrite_readable cached.readable free valid (sz := .word) (.inr (.inr ⟨rfl, al⟩)) d
  generalize t.mem = m at frame
  generalize t.memFlip = f at frame
  subst frame
  let k := tagKey .dcache w (cacheSet .dcache a)
  let y := s.dcache.putTag k (CacheWord.clean ((s.dcache.tag k).val &&& 0xFFFFF0FF#32))
  have snooped : snoop { s with mem := m, memFlip := f } a = { s with mem := m, memFlip := f, dcache := y } := by
    simp only [snoop, bit, snoops, cacheOn_dcache on, cacheable_ram cached.1, Bool.and_self, if_true, hit]
    rfl
  have idle : DsuIdle { s with mem := m, memFlip := f, dcache := y } a := cached.2.2.2.2.2.2
  refine ⟨{ s with mem := m, memFlip := f, dcache := y }, ?_, bytes, ⟨fun j hj => ?_, fun _ _ => rfl⟩, fun x line => ?_, rfl⟩
  · simp only [busWrite, written, reduceCtorEq, if_false, snooped, dsuSeesBus_idle idle]
  · exact (Cache.tag_putTag _ _ _ _).trans (if_neg hj)
  · refine holdsWord_invalidated (v := (s.dcache.tag k).val) ?_
    rw [cacheSet_line line]
    exact (Cache.tag_putTag _ _ _ _).trans (if_pos rfl)

end Sys2Proof.Proofs

/-! PROOFS. Fetches with the instruction cache on, by pairs of words, and the obligation on caches (20_memory R246, R254). -/

namespace Sys2Proof.Proofs

open Sys2Proof Sys2Proof.Machine

/-! ### The pair of words that a fetch fills -/

theorem cacheOn_icache {d : Dev} (on : d.ccr.getLsbD 0 = true) : cacheOn d .icache = true := by
  simp [cacheOn, Config.modelCaches, cacheField, on]

theorem cacheEnabled_icache {d : Dev} (on : d.ccr.getLsbD 0 = true) : cacheEnabled d .icache = d.ccr.getLsbD 1 := by
  have field : d.ccr.extractLsb' 0 2 = 3 ↔ d.ccr.getLsbD 1 = true := by
    refine ⟨fun e => by simpa using congrArg (·.getLsbD 1) e, fun e => ?_⟩
    ext i hi
    rw [BitVec.getElem_extractLsb']
    interval_cases i
    · simpa using on
    · simpa using e
  rw [Bool.eq_iff_iff, ← field]
  exact decide_eq_true_iff

/-- The other word of the pair differs in bit 2 alone. -/
theorem other_getLsbD (a : Word) (i : Nat) : (a ^^^ 4).getLsbD i = (a.getLsbD i ^^ decide (i = 2)) := by
  rw [BitVec.getLsbD_xor]
  congr 1
  by_cases low : i < 32
  · interval_cases i <;> rfl
  · rw [BitVec.getLsbD_of_ge _ _ (by omega)]
    simp
    omega

theorem other_extractLsb (a : Word) {lo : Nat} (above : 2 < lo) (n : Nat) : (a ^^^ 4).extractLsb' lo n = a.extractLsb' lo n := by
  ext i hi
  rw [BitVec.getElem_extractLsb', BitVec.getElem_extractLsb', other_getLsbD, decide_eq_false (by omega), Bool.xor_false]

theorem sameUnit_other (a : Word) : SameUnit .icache a (a ^^^ 4) :=
  ⟨other_extractLsb a (by omega) 19, congrArg BitVec.toNat (other_extractLsb a (by omega) 8),
    congrArg (fun x => 8 + BitVec.toNat x) (other_extractLsb a (by omega) 2)⟩

theorem dataKey_other (a : Word) (w : Nat) : dataKey w a ≠ dataKey w (a ^^^ 4) := by
  refine dataKey_ne (fun e => ?_) w w
  have low := congrArg (·.getLsbD 0) (BitVec.eq_of_toNat_eq e)
  simp only [BitVec.getLsbD_extractLsb', Nat.add_zero, other_getLsbD] at low
  revert low
  cases a.getLsbD 2 <;> simp

theorem other_aligned {a : Word} (al : a.toNat % 4 = 0) : (a ^^^ 4).toNat % 4 = 0 := by
  have low : (a.toNat ^^^ 4) % 2 ^ 2 = a.toNat % 2 ^ 2 ^^^ 4 % 2 ^ 2 := Nat.xor_mod_two_pow
  rw [BitVec.toNat_xor]
  exact low.trans (by simpa using al)

section
variable {s : State} {a : Word} (al : a.toNat % 4 = 0) (cached : CachedRam s a) (cached' : CachedRam s (a ^^^ 4))
include cached cached' al

/-- A fill of the instruction cache with the words of a pair. -/
theorem fillWay_pair {w : Nat} (way : w < cacheWays .icache) (low : ∀ u < w, holdsWord .icache s.icache a u = false) :
    ∃ x, fillFetch s (some w) a (s.wordAt a.toNat) = { s with icache := x } ∧
      fillWay s .icache w a [(a, s.wordAt a.toNat), (a ^^^ 4, s.wordAt (a ^^^ 4).toNat)] = { s with icache := x } ∧
      Holds { s with icache := x } .icache a w (s.wordAt a.toNat) ∧
      Holds { s with icache := x } .icache (a ^^^ 4) w (s.wordAt (a ^^^ 4).toNat) ∧
      badTag { s with icache := x } .icache a w = false ∧ UsedLast x .icache a w ∧
      OtherLinesKept s { s with icache := x } .icache a w [a, a ^^^ 4] := by
  have quiet := cached.2.2.2.2.2.1
  let words := [(a, s.wordAt a.toNat), (a ^^^ 4, s.wordAt (a ^^^ 4).toNat)]
  have apart : words.Pairwise fun p q => dataKey w p.1 ≠ dataKey w q.1 := List.pairwise_pair.2 (dataKey_other a w)
  obtain ⟨frame, kept, good, -, last, -⟩ := fillWay_spec quiet w a words (c := .icache)
  have holds := fillWay_holds quiet (words := words) (v := s.wordAt a.toNat) (c := .icache) way low ⟨rfl, rfl, rfl⟩ (by simp [words]) apart
  have holds' := fillWay_holds quiet (words := words) (v := s.wordAt (a ^^^ 4).toNat) (c := .icache) way low (sameUnit_other a)
    (by simp [words]) apart
  have fill : fillFetch s (some w) a (s.wordAt a.toNat) = fillWay s .icache w a words := by
    simp only [fillFetch, busRead_cached cached' (other_aligned al)]
    rfl
  have frame' : fillWay s .icache w a words = { s with icache := (fillWay s .icache w a words).icache } := frame
  refine ⟨(fillWay s .icache w a words).icache, fill.trans frame', frame', ?_⟩
  rw [← frame']
  exact ⟨holds, holds', good, last, kept⟩

variable (on : s.dev.ccr.getLsbD 0 = true)
include on

/-- What a fetch of RAM does with the instruction cache on. -/
theorem fetchWord_cached :
    let m := s.wordAt a.toNat
    let hit := hitWay .icache s.icache a
    (∀ w, hit = some w → badTag s .icache a w = false → badWord s .icache a w = false →
        ∃ l, UsedLast { s.icache with lru := l } .icache a w ∧
          fetchWord s a = .ok (s.icache.word (dataKey w a)).val { s with icache := { s.icache with lru := l } }) ∧
      (∀ w, hit = some w → badTag s .icache a w = true ∨ badWord s .icache a w = true →
        counterBelowMax .icache (badTag s .icache a w) s.dev.ccr3 →
        ∃ t, fetchWord s a = .ok m t ∧ Holds t .icache a w m ∧ badTag t .icache a w = false ∧
          OtherLinesKept s t .icache a w [a, a ^^^ 4] ∧
          t = { s with icache := t.icache, dev := { s.dev with ccr3 := countedError .icache (badTag s .icache a w) s.dev.ccr3 } }) ∧
      (hit = none → s.dev.ccr.getLsbD 1 = true →
        ∃ t w, fetchWord s a = .ok m t ∧ Holds t .icache a w m ∧ Holds t .icache (a ^^^ 4) w (s.wordAt (a ^^^ 4).toNat) ∧
          badTag t .icache a w = false ∧ UsedLast t.icache .icache a w ∧ OtherLinesKept s t .icache a w [a, a ^^^ 4] ∧
          t = { s with icache := t.icache }) ∧
      (hit = none → s.dev.ccr.getLsbD 1 = false → fetchWord s a = .ok m s) := by
  intro m hit
  obtain ⟨found, bad, missed⟩ := cacheLookup_cases (s := s) (c := .icache) (a := a)
  have through : (cacheable a && cacheOn s.dev .icache) = true := by
    rw [cacheable_ram cached.1, cacheOn_icache on, Bool.and_self]
  have bus := busRead_cached cached al .iu true
  refine ⟨fun w hit' tag word => ?_, fun w hit' wrong below => ?_, fun miss enabled => ?_, fun miss frozen => ?_⟩
  · refine ⟨(s.icache.touch (cacheSet .icache a) w).lru, touch_usedLast s.icache .icache a w, ?_⟩
    simp only [fetchWord, through, if_true, found w hit' tag word]
    rfl
  · obtain ⟨way, low⟩ := below_hit hit'
    have counted := cachedRam_counted cached (countedError .icache (badTag s .icache a w) s.dev.ccr3)
    have counted' := cachedRam_counted cached' (countedError .icache (badTag s .icache a w) s.dev.ccr3)
    obtain ⟨x, filled, -, holds, -, good, -, kept⟩ := fillWay_pair al counted counted' way low
    refine ⟨_, ?_, holds, good, kept, rfl⟩
    simp only [fetchWord, through, if_true, bad w hit' wrong below, busRead_cached counted al]
    exact congrArg _ filled
  · obtain ⟨w, way, filled, low⟩ := allocate_spec [(a, s.wordAt a.toNat), (a ^^^ 4, s.wordAt (a ^^^ 4).toNat)] (c := .icache) (s := s) miss
    obtain ⟨x, -, frame, holds, holds', good, last, kept⟩ := fillWay_pair al cached cached' way low
    refine ⟨_, w, ?_, holds, holds', good, last, kept, rfl⟩
    simp only [fetchWord, through, if_true, missed miss, bus, cacheEnabled_icache on, enabled, if_true, fillFetch, busRead_cached cached' (other_aligned al)]
    exact congrArg _ (filled.trans frame)
  · simp only [fetchWord, through, if_true, missed miss, bus, cacheEnabled_icache on, frozen, Bool.false_eq_true, if_false]
    rfl

end

/-! ### The obligation -/

/-- Settles O52. -/
theorem cachedAccessResults : Obligations.CachedAccessResults := by
  refine ⟨?_, ?fetches⟩
  case fetches =>
    intro s a m hit al cached cached' on
    exact fetchWord_cached al cached cached' on
  intro s rd rs1 op2 hp a b k v half word dword ub sb uh sh normal cached cachedBase on
  refine ⟨fun nw => ?_, fun free valid => ⟨fun nw => ?_, fun nw good => ?_, fun d w al snoops hit => ?_⟩⟩
  · obtain ⟨hub, hsb, hhalf, hword, hdword⟩ := loads_cached hp rd rs1 cached cachedBase on nw
    refine ⟨hub, hsb, hhalf, hword, hdword, fun asi rs2 hop sup => ?_⟩
    subst hop
    exact alternateLoads_cached hp rd rs1 sup cached cachedBase on nw asi
  · obtain ⟨hbyte, hhalf, hword, hdword⟩ := stores_cached hp rd rs1 cached on free valid nw
    refine ⟨hbyte, hhalf, hword, hdword, fun asi rs2 hop sup space => ?_⟩
    subst hop
    exact alternateStores_cached hp rd rs1 sup cached on free valid nw space
  · obtain ⟨hbyte, hword⟩ := atomics_cached hp rd rs1 cached cachedBase on free valid nw good
    refine ⟨hbyte, hword, fun asi rs2 hop sup space => ?_⟩
    subst hop
    exact alternateAtomics_cached hp rd rs1 sup cached cachedBase on free valid nw good space
  · exact busWrite_snooped al cached on snoops free valid hit

end Sys2Proof.Proofs
